-- ==== Sys2Proof/Word.lean ====
section
/-! DEFINITION. The two widths of the machine (00_scope.md R4): XLEN and PLEN are 8, ALEN is 16. -/

namespace Sys2Proof

/-- A register, memory byte, immediate `n`, I/O datum or port number: 8 bits (R4). -/
abbrev Byte := BitVec 8

/-- PC, SP, a register pair, a memory address or an immediate `nn`: 16 bits (R4). -/
abbrev Word := BitVec 16

end Sys2Proof
end

