-- ==== Sys2Proof/Machine/Bytes.lean ====
section
/-! DEFINITION. The byte and word views of 00_scope.md R5. -/

namespace Sys2Proof.Machine

/-- `hi(v) = v[15:8]` (R5). -/
def hi (v : Word) : Byte := v.extractLsb' 8 8

/-- `lo(v) = v[7:0]` (R5). -/
def lo (v : Word) : Byte := v.extractLsb' 0 8

/-- The concatenation of a high and a low byte, written with braces in R5: `256*h + l`. -/
def join (h l : Byte) : Word := h ++ l

end Sys2Proof.Machine
end

