-- ==== Sys2Proof/Config.lean ====
section
/-! DEFINITION. What the spec leaves to the implementation, the platform or the environment
(92_eei_decisions.md, "Named parameters left open"). A value the spec leaves free is an opaque
constant: nothing can evaluate it, so no theorem rests on a choice of it. -/

namespace Sys2Proof.Config

/-- The two candidates for the H flag after a subtraction (00_scope.md R12, decision D4). -/
inductive SubH where
  /-- H is the borrow from bit 4 into bit 3. -/
  | borrow
  /-- H is the carry out of bit 3 of `a + not b + (1 - bin)`. -/
  | carry
deriving DecidableEq, Repr, Inhabited

/-- FREE VALUE. `SUB_H`, fixed for a machine and unknown (R12, D4; log 1). -/
opaque subH : SubH

/-- FREE VALUE. `PSW_FILL`, the bits 5, 3, 1 (in this order) of the Flags byte of one PUSH PSW, by
draw index (10_state.md R28, D5; log 2). -/
opaque pswFill : Nat → BitVec 3

/-- FREE VALUE. What an `IoRead` of a port is answered when the state holds no answer, by draw index
and port (20_memory.md R52, D17; log 8). -/
opaque ioAnswer : Nat → Byte → Byte

/-- Why a byte of memory is read; it keeps a fetch's draw apart from a data read's in one step. -/
inductive Access where
  /-- An instruction byte (10_state.md R24). -/
  | fetch
  /-- A data or stack byte (20_memory.md R55). -/
  | data
deriving DecidableEq, Repr, Inhabited

/-- FREE VALUE. What a read of an address that holds nothing gives, by draw index, kind of access
and address (20_memory.md R59, D16; log 7). -/
opaque unbackedByte : Nat → Access → Word → Byte

/-- FREE VALUE. The register of a 3-bit code after a reset in a run, by draw index (10_state.md R37,
70_reset_and_hazards.md R331; log 4). -/
opaque resetReg : Nat → BitVec 3 → Byte

/-- FREE VALUE. SP after a reset in a run, by draw index (R37, R331; log 4). -/
opaque resetSp : Nat → Word

/-- FREE VALUE. The five flags after a reset in a run, as a Flags byte, by draw index (R37, R331;
log 4). -/
opaque resetFlags : Nat → Byte

/-- What a memory address that is not listed reads as. DESIGN CHOICE, unsafe: RAM after power-up is
unspecified (R37, R331; log 5). -/
def unlistedByte : Byte := 0x00#8

/-- What the platform puts at an address (20_memory.md R51). -/
inductive MemKind where
  /-- Readable and writable storage. -/
  | ram
  /-- Readable storage a write does not change. -/
  | rom
  /-- The spec's `none`: nothing there. -/
  | nothing
deriving DecidableEq, Repr, Inhabited

/-- One range of the platform's `MemMap`, both ends included (20_memory.md R51). -/
structure Region where
  /-- First address of the range. -/
  first : Word
  /-- Last address of the range. -/
  last : Word
  /-- What the range holds. -/
  kind : MemKind
deriving DecidableEq, Repr

/-- What the environment presents at one instruction boundary (60_exceptions.md R305, R323). -/
inductive EnvEvent where
  /-- The spec's `none`: no reset and no request. -/
  | quiet
  /-- `request(i)`: an interrupt request with restart number `i`. -/
  | request (i : Fin 8)
  /-- `env.reset`. -/
  | reset
deriving DecidableEq, Repr

/-- One entry of the event history (20_memory.md R52). -/
inductive IoEvent where
  /-- An `IoRead` of `port`, answered `v`. -/
  | read (port v : Byte)
  /-- An `IoWrite` of `v` to `port`. -/
  | write (port v : Byte)
deriving DecidableEq, Repr

end Sys2Proof.Config
end

