-- ==== Sys2Proof/Syntax.lean ====
section
/-! DEFINITION. The instructions: one constructor for each of the 111 rows of spec/opcode_table.json,
in the table's order. Operands are already decoded: a register is a name, an immediate its value. -/

namespace Sys2Proof

/-- The seven 8-bit general registers (10_state.md R20). The code 110 names none of them. -/
inductive Reg8 where
  | b | c | d | e | h | l | a
deriving DecidableEq, Repr

/-- The instruction set. In operand positions `rd` is a destination register, `rs` a source register,
`n` the second instruction byte, `nn` the 16-bit operand, `i` the restart number of RST, which is 0
to 7 in a well-formed instruction. -/
inductive Instr where
  -- 8-bit moves: 40_move8.md
  /-- `MOV r, r'` (R101). -/
  | movRR (rd : Reg8) (rs : Reg8)
  /-- `MVI r, n` (R102). -/
  | mviR (rd : Reg8) (n : Byte)
  /-- `MOV r, M` (R103). -/
  | movRM (rd : Reg8)
  /-- `MOV M, r` (R104). -/
  | movMR (rs : Reg8)
  /-- `MVI M, n` (R105). -/
  | mviM (n : Byte)
  /-- `LDAX B` (R106). -/
  | ldaxB
  /-- `LDAX D` (R107). -/
  | ldaxD
  /-- `LDA nn` (R108). -/
  | lda (nn : Word)
  /-- `STAX B` (R109). -/
  | staxB
  /-- `STAX D` (R110). -/
  | staxD
  /-- `STA nn` (R111). -/
  | sta (nn : Word)
  -- 16-bit moves and the stack: 41_move16.md
  /-- `LXI B, nn` (R121). -/
  | lxiB (nn : Word)
  /-- `LXI D, nn` (R122). -/
  | lxiD (nn : Word)
  /-- `LXI H, nn` (R123). -/
  | lxiH (nn : Word)
  /-- `LXI SP, nn` (R124). -/
  | lxiSP (nn : Word)
  /-- `LHLD nn` (R125). -/
  | lhld (nn : Word)
  /-- `SHLD nn` (R126). -/
  | shld (nn : Word)
  /-- `SPHL` (R127). -/
  | sphl
  /-- `XCHG` (R128). -/
  | xchg
  /-- `XTHL` (R129). -/
  | xthl
  /-- `PUSH B` (R138). -/
  | pushB
  /-- `PUSH D` (R139). -/
  | pushD
  /-- `PUSH H` (R140). -/
  | pushH
  /-- `PUSH PSW` (R141). -/
  | pushPSW
  /-- `POP B` (R142). -/
  | popB
  /-- `POP D` (R143). -/
  | popD
  /-- `POP H` (R144). -/
  | popH
  /-- `POP PSW` (R145). -/
  | popPSW
  -- 8-bit arithmetic and logic: 42_alu8.md
  /-- `ADD r` (R157). -/
  | addR (rs : Reg8)
  /-- `ADI n` (R158). -/
  | adi (n : Byte)
  /-- `ADD M` (R159). -/
  | addM
  /-- `ADC r` (R160). -/
  | adcR (rs : Reg8)
  /-- `ACI n` (R161). -/
  | aci (n : Byte)
  /-- `ADC M` (R162). -/
  | adcM
  /-- `SUB r` (R163). -/
  | subR (rs : Reg8)
  /-- `SUI n` (R164). -/
  | sui (n : Byte)
  /-- `SUB M` (R165). -/
  | subM
  /-- `SBB r` (R166). -/
  | sbbR (rs : Reg8)
  /-- `SBI n` (R167). -/
  | sbi (n : Byte)
  /-- `SBB M` (R168). -/
  | sbbM
  /-- `CMP r` (R169). -/
  | cmpR (rs : Reg8)
  /-- `CPI n` (R170). -/
  | cpi (n : Byte)
  /-- `CMP M` (R171). -/
  | cmpM
  /-- `ANA r` (R172). -/
  | anaR (rs : Reg8)
  /-- `ANI n` (R173). -/
  | ani (n : Byte)
  /-- `ANA M` (R174). -/
  | anaM
  /-- `ORA r` (R175). -/
  | oraR (rs : Reg8)
  /-- `ORI n` (R176). -/
  | ori (n : Byte)
  /-- `ORA M` (R177). -/
  | oraM
  /-- `XRA r` (R178). -/
  | xraR (rs : Reg8)
  /-- `XRI n` (R179). -/
  | xri (n : Byte)
  /-- `XRA M` (R180). -/
  | xraM
  /-- `INR r` (R181). -/
  | inrR (rd : Reg8)
  /-- `INR M` (R182). -/
  | inrM
  /-- `DCR r` (R183). -/
  | dcrR (rd : Reg8)
  /-- `DCR M` (R184). -/
  | dcrM
  /-- `DAA` (R186). -/
  | daa
  /-- `CMA` (R187). -/
  | cma
  -- 16-bit arithmetic: 43_arith16.md
  /-- `DAD B` (R201). -/
  | dadB
  /-- `DAD D` (R202). -/
  | dadD
  /-- `DAD H` (R203). -/
  | dadH
  /-- `DAD SP` (R204). -/
  | dadSP
  /-- `INX B` (R205). -/
  | inxB
  /-- `INX D` (R206). -/
  | inxD
  /-- `INX H` (R207). -/
  | inxH
  /-- `INX SP` (R208). -/
  | inxSP
  /-- `DCX B` (R209). -/
  | dcxB
  /-- `DCX D` (R210). -/
  | dcxD
  /-- `DCX H` (R211). -/
  | dcxH
  /-- `DCX SP` (R212). -/
  | dcxSP
  -- CPU control: 44_cpu_control.md
  /-- `CMC` (R221). -/
  | cmc
  /-- `STC` (R222). -/
  | stc
  /-- `NOP` (R223). -/
  | nop
  /-- `HLT` (R224). -/
  | hlt
  /-- `DI` (R225). -/
  | di
  /-- `EI` (R226). -/
  | ei
  -- Jumps: 45_jump.md
  /-- `JMP nn` (R231). -/
  | jmp (nn : Word)
  /-- `JNZ nn` (R232). -/
  | jnz (nn : Word)
  /-- `JZ nn` (R233). -/
  | jz (nn : Word)
  /-- `JNC nn` (R234). -/
  | jnc (nn : Word)
  /-- `JC nn` (R235). -/
  | jc (nn : Word)
  /-- `JPO nn` (R236). -/
  | jpo (nn : Word)
  /-- `JPE nn` (R237). -/
  | jpe (nn : Word)
  /-- `JP nn` (R238). -/
  | jp (nn : Word)
  /-- `JM nn` (R239). -/
  | jm (nn : Word)
  /-- `PCHL` (R240). -/
  | pchl
  -- Calls, returns, restarts: 46_call_return.md
  /-- `CALL nn` (R251). -/
  | call (nn : Word)
  /-- `CNZ nn` (R252). -/
  | cnz (nn : Word)
  /-- `CZ nn` (R253). -/
  | cz (nn : Word)
  /-- `CNC nn` (R254). -/
  | cnc (nn : Word)
  /-- `CC nn` (R255). -/
  | cc (nn : Word)
  /-- `CPO nn` (R256). -/
  | cpo (nn : Word)
  /-- `CPE nn` (R257). -/
  | cpe (nn : Word)
  /-- `CP nn` (R258). -/
  | cp (nn : Word)
  /-- `CM nn` (R259). -/
  | cm (nn : Word)
  /-- `RET` (R260). -/
  | ret
  /-- `RNZ` (R261). -/
  | rnz
  /-- `RZ` (R262). -/
  | rz
  /-- `RNC` (R263). -/
  | rnc
  /-- `RC` (R264). -/
  | rc
  /-- `RPO` (R265). -/
  | rpo
  /-- `RPE` (R266). -/
  | rpe
  /-- `RP` (R267). -/
  | rp
  /-- `RM` (R268). -/
  | rm
  /-- `RST i` (R277). -/
  | rst (i : Nat)
  -- Rotates: 47_rotate.md
  /-- `RLC` (R281). -/
  | rlc
  /-- `RAL` (R282). -/
  | ral
  /-- `RRC` (R283). -/
  | rrc
  /-- `RAR` (R284). -/
  | rar
  -- Input and output: 48_io.md
  /-- `IN n` (R291). -/
  | inPort (n : Byte)
  /-- `OUT n` (R292). -/
  | outPort (n : Byte)
deriving DecidableEq, Repr

end Sys2Proof
end

