-- ==== Sys2Proof/WellFormed.lean ====
section
/-! DEFINITION. Which instruction terms the spec's encodings can hold. Register and immediate
operands are well formed by their types; the restart number of RST is the one operand that needs a
check: "`RST i` takes `i` from 0 to 7" (30_encoding.md R90). -/

namespace Sys2Proof

/-- The check, one arm for each constructor. -/
def Instr.wellFormed : Instr → Bool
  | .movRR _ _ => true
  | .mviR _ _ => true
  | .movRM _ => true
  | .movMR _ => true
  | .mviM _ => true
  | .ldaxB => true
  | .ldaxD => true
  | .lda _ => true
  | .staxB => true
  | .staxD => true
  | .sta _ => true
  | .lxiB _ => true
  | .lxiD _ => true
  | .lxiH _ => true
  | .lxiSP _ => true
  | .lhld _ => true
  | .shld _ => true
  | .sphl => true
  | .xchg => true
  | .xthl => true
  | .pushB => true
  | .pushD => true
  | .pushH => true
  | .pushPSW => true
  | .popB => true
  | .popD => true
  | .popH => true
  | .popPSW => true
  | .addR _ => true
  | .adi _ => true
  | .addM => true
  | .adcR _ => true
  | .aci _ => true
  | .adcM => true
  | .subR _ => true
  | .sui _ => true
  | .subM => true
  | .sbbR _ => true
  | .sbi _ => true
  | .sbbM => true
  | .cmpR _ => true
  | .cpi _ => true
  | .cmpM => true
  | .anaR _ => true
  | .ani _ => true
  | .anaM => true
  | .oraR _ => true
  | .ori _ => true
  | .oraM => true
  | .xraR _ => true
  | .xri _ => true
  | .xraM => true
  | .inrR _ => true
  | .inrM => true
  | .dcrR _ => true
  | .dcrM => true
  | .daa => true
  | .cma => true
  | .dadB => true
  | .dadD => true
  | .dadH => true
  | .dadSP => true
  | .inxB => true
  | .inxD => true
  | .inxH => true
  | .inxSP => true
  | .dcxB => true
  | .dcxD => true
  | .dcxH => true
  | .dcxSP => true
  | .cmc => true
  | .stc => true
  | .nop => true
  | .hlt => true
  | .di => true
  | .ei => true
  | .jmp _ => true
  | .jnz _ => true
  | .jz _ => true
  | .jnc _ => true
  | .jc _ => true
  | .jpo _ => true
  | .jpe _ => true
  | .jp _ => true
  | .jm _ => true
  | .pchl => true
  | .call _ => true
  | .cnz _ => true
  | .cz _ => true
  | .cnc _ => true
  | .cc _ => true
  | .cpo _ => true
  | .cpe _ => true
  | .cp _ => true
  | .cm _ => true
  | .ret => true
  | .rnz => true
  | .rz => true
  | .rnc => true
  | .rc => true
  | .rpo => true
  | .rpe => true
  | .rp => true
  | .rm => true
  | .rst i => decide (i < 8)
  | .rlc => true
  | .ral => true
  | .rrc => true
  | .rar => true
  | .inPort _ => true
  | .outPort _ => true

/-- `i` is a term some encoding stands for. -/
abbrev Instr.WellFormed (i : Instr) : Prop := i.wellFormed = true

end Sys2Proof
end

