-- ==== Sys2Proof/Decode.lean ====
section
/-! DEFINITION. The decoder, total on any bytes and refusing by name, and the encoder
(30_encoding.md). The decoder reads the rows of spec/opcode_table.json by mask and match; the encoder
writes each row's bit pattern in the three groups "76 543 210" of the document. -/

namespace Sys2Proof

open Sys2Proof.Machine (hi lo join)

/-- The 3-bit code of a register (30_encoding.md R82). -/
def Reg8.code : Reg8 → BitVec 3
  | .b => 0b000#3
  | .c => 0b001#3
  | .d => 0b010#3
  | .e => 0b011#3
  | .h => 0b100#3
  | .l => 0b101#3
  | .a => 0b111#3

/-- The register of a 3-bit code; 110 names none (R82). -/
def Reg8.ofCode (v : BitVec 3) : Option Reg8 :=
  match v.toNat with
  | 0 => some .b
  | 1 => some .c
  | 2 => some .d
  | 3 => some .e
  | 4 => some .h
  | 5 => some .l
  | 7 => some .a
  | _ => none

/-- Bits 5:3 of the opcode byte: the fields `ddd`, `ooo`, `ccc`, `ttt` (R81). -/
def midField (op : Byte) : BitVec 3 := op.extractLsb' 3 3

/-- Bits 2:0 of the opcode byte: the field `sss` (R81). -/
def lowField (op : Byte) : BitVec 3 := op.extractLsb' 0 3

/-- The instruction of a row whose field `ddd` names a register. -/
def withDst (op : Byte) (f : Reg8 → Instr) : Option Instr := (Reg8.ofCode (midField op)).map f

/-- The instruction of a row whose field `sss` names a register. -/
def withSrc (op : Byte) (f : Reg8 → Instr) : Option Instr := (Reg8.ofCode (lowField op)).map f

/-- One row of the opcode table: its mask and match, and the instruction it stands for, from the
opcode byte, the byte operand `n` and the word operand `nn`. A row with a register field stands for
nothing where the field is 110. -/
structure OpcodeRow where
  /-- The bits of the opcode byte the row fixes. -/
  mask : Byte
  /-- Their values. -/
  value : Byte
  /-- The row's instruction. -/
  build : Byte → Byte → Word → Option Instr

/-- 8-bit moves (40_move8.md). -/
def move8Rows : List OpcodeRow :=
  [⟨0xC0, 0x40, fun op _ _ => (Reg8.ofCode (midField op)).bind fun rd => withSrc op (.movRR rd)⟩,
   ⟨0xC7, 0x06, fun op n _ => withDst op (.mviR · n)⟩,
   ⟨0xC7, 0x46, fun op _ _ => withDst op .movRM⟩,
   ⟨0xF8, 0x70, fun op _ _ => withSrc op .movMR⟩,
   ⟨0xFF, 0x36, fun _ n _ => some (.mviM n)⟩,
   ⟨0xFF, 0x0A, fun _ _ _ => some .ldaxB⟩,
   ⟨0xFF, 0x1A, fun _ _ _ => some .ldaxD⟩,
   ⟨0xFF, 0x3A, fun _ _ nn => some (.lda nn)⟩,
   ⟨0xFF, 0x02, fun _ _ _ => some .staxB⟩,
   ⟨0xFF, 0x12, fun _ _ _ => some .staxD⟩,
   ⟨0xFF, 0x32, fun _ _ nn => some (.sta nn)⟩]

/-- 16-bit moves and the stack (41_move16.md). -/
def move16Rows : List OpcodeRow :=
  [⟨0xFF, 0x01, fun _ _ nn => some (.lxiB nn)⟩,
   ⟨0xFF, 0x11, fun _ _ nn => some (.lxiD nn)⟩,
   ⟨0xFF, 0x21, fun _ _ nn => some (.lxiH nn)⟩,
   ⟨0xFF, 0x31, fun _ _ nn => some (.lxiSP nn)⟩,
   ⟨0xFF, 0x2A, fun _ _ nn => some (.lhld nn)⟩,
   ⟨0xFF, 0x22, fun _ _ nn => some (.shld nn)⟩,
   ⟨0xFF, 0xF9, fun _ _ _ => some .sphl⟩,
   ⟨0xFF, 0xEB, fun _ _ _ => some .xchg⟩,
   ⟨0xFF, 0xE3, fun _ _ _ => some .xthl⟩,
   ⟨0xFF, 0xC5, fun _ _ _ => some .pushB⟩,
   ⟨0xFF, 0xD5, fun _ _ _ => some .pushD⟩,
   ⟨0xFF, 0xE5, fun _ _ _ => some .pushH⟩,
   ⟨0xFF, 0xF5, fun _ _ _ => some .pushPSW⟩,
   ⟨0xFF, 0xC1, fun _ _ _ => some .popB⟩,
   ⟨0xFF, 0xD1, fun _ _ _ => some .popD⟩,
   ⟨0xFF, 0xE1, fun _ _ _ => some .popH⟩,
   ⟨0xFF, 0xF1, fun _ _ _ => some .popPSW⟩]

/-- 8-bit arithmetic and logic (42_alu8.md). -/
def alu8Rows : List OpcodeRow :=
  [⟨0xF8, 0x80, fun op _ _ => withSrc op .addR⟩,
   ⟨0xFF, 0xC6, fun _ n _ => some (.adi n)⟩,
   ⟨0xFF, 0x86, fun _ _ _ => some .addM⟩,
   ⟨0xF8, 0x88, fun op _ _ => withSrc op .adcR⟩,
   ⟨0xFF, 0xCE, fun _ n _ => some (.aci n)⟩,
   ⟨0xFF, 0x8E, fun _ _ _ => some .adcM⟩,
   ⟨0xF8, 0x90, fun op _ _ => withSrc op .subR⟩,
   ⟨0xFF, 0xD6, fun _ n _ => some (.sui n)⟩,
   ⟨0xFF, 0x96, fun _ _ _ => some .subM⟩,
   ⟨0xF8, 0x98, fun op _ _ => withSrc op .sbbR⟩,
   ⟨0xFF, 0xDE, fun _ n _ => some (.sbi n)⟩,
   ⟨0xFF, 0x9E, fun _ _ _ => some .sbbM⟩,
   ⟨0xF8, 0xB8, fun op _ _ => withSrc op .cmpR⟩,
   ⟨0xFF, 0xFE, fun _ n _ => some (.cpi n)⟩,
   ⟨0xFF, 0xBE, fun _ _ _ => some .cmpM⟩,
   ⟨0xF8, 0xA0, fun op _ _ => withSrc op .anaR⟩,
   ⟨0xFF, 0xE6, fun _ n _ => some (.ani n)⟩,
   ⟨0xFF, 0xA6, fun _ _ _ => some .anaM⟩,
   ⟨0xF8, 0xB0, fun op _ _ => withSrc op .oraR⟩,
   ⟨0xFF, 0xF6, fun _ n _ => some (.ori n)⟩,
   ⟨0xFF, 0xB6, fun _ _ _ => some .oraM⟩,
   ⟨0xF8, 0xA8, fun op _ _ => withSrc op .xraR⟩,
   ⟨0xFF, 0xEE, fun _ n _ => some (.xri n)⟩,
   ⟨0xFF, 0xAE, fun _ _ _ => some .xraM⟩,
   ⟨0xC7, 0x04, fun op _ _ => withDst op .inrR⟩,
   ⟨0xFF, 0x34, fun _ _ _ => some .inrM⟩,
   ⟨0xC7, 0x05, fun op _ _ => withDst op .dcrR⟩,
   ⟨0xFF, 0x35, fun _ _ _ => some .dcrM⟩,
   ⟨0xFF, 0x27, fun _ _ _ => some .daa⟩,
   ⟨0xFF, 0x2F, fun _ _ _ => some .cma⟩]

/-- 16-bit arithmetic (43_arith16.md). -/
def arith16Rows : List OpcodeRow :=
  [⟨0xFF, 0x09, fun _ _ _ => some .dadB⟩,
   ⟨0xFF, 0x19, fun _ _ _ => some .dadD⟩,
   ⟨0xFF, 0x29, fun _ _ _ => some .dadH⟩,
   ⟨0xFF, 0x39, fun _ _ _ => some .dadSP⟩,
   ⟨0xFF, 0x03, fun _ _ _ => some .inxB⟩,
   ⟨0xFF, 0x13, fun _ _ _ => some .inxD⟩,
   ⟨0xFF, 0x23, fun _ _ _ => some .inxH⟩,
   ⟨0xFF, 0x33, fun _ _ _ => some .inxSP⟩,
   ⟨0xFF, 0x0B, fun _ _ _ => some .dcxB⟩,
   ⟨0xFF, 0x1B, fun _ _ _ => some .dcxD⟩,
   ⟨0xFF, 0x2B, fun _ _ _ => some .dcxH⟩,
   ⟨0xFF, 0x3B, fun _ _ _ => some .dcxSP⟩]

/-- CPU control (44_cpu_control.md). -/
def controlRows : List OpcodeRow :=
  [⟨0xFF, 0x3F, fun _ _ _ => some .cmc⟩,
   ⟨0xFF, 0x37, fun _ _ _ => some .stc⟩,
   ⟨0xFF, 0x00, fun _ _ _ => some .nop⟩,
   ⟨0xFF, 0x76, fun _ _ _ => some .hlt⟩,
   ⟨0xFF, 0xF3, fun _ _ _ => some .di⟩,
   ⟨0xFF, 0xFB, fun _ _ _ => some .ei⟩]

/-- Jumps (45_jump.md). -/
def jumpRows : List OpcodeRow :=
  [⟨0xFF, 0xC3, fun _ _ nn => some (.jmp nn)⟩,
   ⟨0xFF, 0xC2, fun _ _ nn => some (.jnz nn)⟩,
   ⟨0xFF, 0xCA, fun _ _ nn => some (.jz nn)⟩,
   ⟨0xFF, 0xD2, fun _ _ nn => some (.jnc nn)⟩,
   ⟨0xFF, 0xDA, fun _ _ nn => some (.jc nn)⟩,
   ⟨0xFF, 0xE2, fun _ _ nn => some (.jpo nn)⟩,
   ⟨0xFF, 0xEA, fun _ _ nn => some (.jpe nn)⟩,
   ⟨0xFF, 0xF2, fun _ _ nn => some (.jp nn)⟩,
   ⟨0xFF, 0xFA, fun _ _ nn => some (.jm nn)⟩,
   ⟨0xFF, 0xE9, fun _ _ _ => some .pchl⟩]

/-- Calls, returns, restarts (46_call_return.md). -/
def callRows : List OpcodeRow :=
  [⟨0xFF, 0xCD, fun _ _ nn => some (.call nn)⟩,
   ⟨0xFF, 0xC4, fun _ _ nn => some (.cnz nn)⟩,
   ⟨0xFF, 0xCC, fun _ _ nn => some (.cz nn)⟩,
   ⟨0xFF, 0xD4, fun _ _ nn => some (.cnc nn)⟩,
   ⟨0xFF, 0xDC, fun _ _ nn => some (.cc nn)⟩,
   ⟨0xFF, 0xE4, fun _ _ nn => some (.cpo nn)⟩,
   ⟨0xFF, 0xEC, fun _ _ nn => some (.cpe nn)⟩,
   ⟨0xFF, 0xF4, fun _ _ nn => some (.cp nn)⟩,
   ⟨0xFF, 0xFC, fun _ _ nn => some (.cm nn)⟩,
   ⟨0xFF, 0xC9, fun _ _ _ => some .ret⟩,
   ⟨0xFF, 0xC0, fun _ _ _ => some .rnz⟩,
   ⟨0xFF, 0xC8, fun _ _ _ => some .rz⟩,
   ⟨0xFF, 0xD0, fun _ _ _ => some .rnc⟩,
   ⟨0xFF, 0xD8, fun _ _ _ => some .rc⟩,
   ⟨0xFF, 0xE0, fun _ _ _ => some .rpo⟩,
   ⟨0xFF, 0xE8, fun _ _ _ => some .rpe⟩,
   ⟨0xFF, 0xF0, fun _ _ _ => some .rp⟩,
   ⟨0xFF, 0xF8, fun _ _ _ => some .rm⟩,
   ⟨0xC7, 0xC7, fun op _ _ => some (.rst (midField op).toNat)⟩]

/-- Rotates (47_rotate.md). -/
def rotateRows : List OpcodeRow :=
  [⟨0xFF, 0x07, fun _ _ _ => some .rlc⟩,
   ⟨0xFF, 0x17, fun _ _ _ => some .ral⟩,
   ⟨0xFF, 0x0F, fun _ _ _ => some .rrc⟩,
   ⟨0xFF, 0x1F, fun _ _ _ => some .rar⟩]

/-- Input and output (48_io.md). -/
def ioRows : List OpcodeRow :=
  [⟨0xFF, 0xDB, fun _ n _ => some (.inPort n)⟩,
   ⟨0xFF, 0xD3, fun _ n _ => some (.outPort n)⟩]

/-- All 111 rows, in the order of the table. -/
def opcodeRows : List OpcodeRow :=
  move8Rows ++ move16Rows ++ alu8Rows ++ arith16Rows ++ controlRows ++
    jumpRows ++ callRows ++ rotateRows ++ ioRows

/-- The instruction of one row, if the row covers the opcode byte. -/
def OpcodeRow.read (row : OpcodeRow) (op n : Byte) (nn : Word) : Option Instr :=
  if op &&& row.mask = row.value then row.build op n nn else none

/-- The instruction whose bytes are `op`, `b2`, `b3` (as many of them as its length says): the
operand `n` is `b2` and `nn` is `b3:b2`, low byte first (R84). `none` for the twelve values of R87. -/
def decodeInstr (op b2 b3 : Byte) : Option Instr :=
  opcodeRows.findSome? fun row => row.read op b2 (join b3 b2)

/-- Instruction length in bytes (R80, column "Bytes" of 70_reset_and_hazards.md R336). -/
def Instr.length : Instr → Nat
  | .movRR _ _ => 1
  | .mviR _ _ => 2
  | .movRM _ => 1
  | .movMR _ => 1
  | .mviM _ => 2
  | .ldaxB => 1
  | .ldaxD => 1
  | .lda _ => 3
  | .staxB => 1
  | .staxD => 1
  | .sta _ => 3
  | .lxiB _ => 3
  | .lxiD _ => 3
  | .lxiH _ => 3
  | .lxiSP _ => 3
  | .lhld _ => 3
  | .shld _ => 3
  | .sphl => 1
  | .xchg => 1
  | .xthl => 1
  | .pushB => 1
  | .pushD => 1
  | .pushH => 1
  | .pushPSW => 1
  | .popB => 1
  | .popD => 1
  | .popH => 1
  | .popPSW => 1
  | .addR _ => 1
  | .adi _ => 2
  | .addM => 1
  | .adcR _ => 1
  | .aci _ => 2
  | .adcM => 1
  | .subR _ => 1
  | .sui _ => 2
  | .subM => 1
  | .sbbR _ => 1
  | .sbi _ => 2
  | .sbbM => 1
  | .cmpR _ => 1
  | .cpi _ => 2
  | .cmpM => 1
  | .anaR _ => 1
  | .ani _ => 2
  | .anaM => 1
  | .oraR _ => 1
  | .ori _ => 2
  | .oraM => 1
  | .xraR _ => 1
  | .xri _ => 2
  | .xraM => 1
  | .inrR _ => 1
  | .inrM => 1
  | .dcrR _ => 1
  | .dcrM => 1
  | .daa => 1
  | .cma => 1
  | .dadB => 1
  | .dadD => 1
  | .dadH => 1
  | .dadSP => 1
  | .inxB => 1
  | .inxD => 1
  | .inxH => 1
  | .inxSP => 1
  | .dcxB => 1
  | .dcxD => 1
  | .dcxH => 1
  | .dcxSP => 1
  | .cmc => 1
  | .stc => 1
  | .nop => 1
  | .hlt => 1
  | .di => 1
  | .ei => 1
  | .jmp _ => 3
  | .jnz _ => 3
  | .jz _ => 3
  | .jnc _ => 3
  | .jc _ => 3
  | .jpo _ => 3
  | .jpe _ => 3
  | .jp _ => 3
  | .jm _ => 3
  | .pchl => 1
  | .call _ => 3
  | .cnz _ => 3
  | .cz _ => 3
  | .cnc _ => 3
  | .cc _ => 3
  | .cpo _ => 3
  | .cpe _ => 3
  | .cp _ => 3
  | .cm _ => 3
  | .ret => 1
  | .rnz => 1
  | .rz => 1
  | .rnc => 1
  | .rc => 1
  | .rpo => 1
  | .rpe => 1
  | .rp => 1
  | .rm => 1
  | .rst _ => 1
  | .rlc => 1
  | .ral => 1
  | .rrc => 1
  | .rar => 1
  | .inPort _ => 2
  | .outPort _ => 2

/-- Why a list of bytes is not an instruction. -/
inductive DecodeError where
  /-- There is no opcode byte. -/
  | noBytes
  /-- The opcode byte is one of the twelve values without a row (R87). -/
  | illegalOpcode (op : Byte)
  /-- The instruction of opcode byte `op` has more bytes than the list. -/
  | truncated (op : Byte)
deriving DecidableEq, Repr

/-- The decoder on a list of bytes: the instruction at its front, and the rest of the list. -/
def decode : List Byte → Except DecodeError (Instr × List Byte)
  | [] => .error .noBytes
  | op :: rest =>
    match decodeInstr op (rest.getD 0 0#8) (rest.getD 1 0#8) with
    | none => .error (.illegalOpcode op)
    | some i =>
      if rest.length + 1 < i.length then .error (.truncated op)
      else .ok (i, rest.drop (i.length - 1))

/-- `length(op)` as a function of the opcode byte alone, by the patterns of R80; not asked about the
twelve undefined values. -/
def lengthOfOpcode (op : Byte) : Nat :=
  if op &&& 0xCF = 0x01 ∨ op &&& 0xE7 = 0x22 ∨ op &&& 0xC7 = 0xC2 ∨ op &&& 0xC7 = 0xC4 ∨
      op = 0xC3 ∨ op = 0xCD then 3
  else if op &&& 0xC7 = 0x06 ∨ op &&& 0xC7 = 0xC6 ∨ op = 0xD3 ∨ op = 0xDB then 2
  else 1

/-- The twelve opcode values that have no row (R87). -/
def undefinedOpcodes : List Byte :=
  [0x08, 0x10, 0x18, 0x20, 0x28, 0x30, 0x38, 0xCB, 0xD9, 0xDD, 0xED, 0xFD]

/-- An opcode byte from the three groups of the document's column "76 543 210" (R5, R81). -/
def pattern (q : BitVec 2) (mid low : BitVec 3) : Byte := q ++ mid ++ low

/-- A one-byte instruction (format F1 of R80). -/
def formatF1 (op : Byte) : List Byte := [op]

/-- A two-byte instruction (format F2). -/
def formatF2 (op n : Byte) : List Byte := [op, n]

/-- A three-byte instruction (format F3), the low byte of `nn` first (R84). -/
def formatF3 (op : Byte) (nn : Word) : List Byte := [op, lo nn, hi nn]

/-- The bytes of an instruction, lowest address first: the "Encoding" line of its rule. -/
def encode : Instr → List Byte
  | .movRR rd rs => formatF1 (pattern 0b01 rd.code rs.code)
  | .mviR rd n => formatF2 (pattern 0b00 rd.code 0b110) n
  | .movRM rd => formatF1 (pattern 0b01 rd.code 0b110)
  | .movMR rs => formatF1 (pattern 0b01 0b110 rs.code)
  | .mviM n => formatF2 (pattern 0b00 0b110 0b110) n
  | .ldaxB => formatF1 (pattern 0b00 0b001 0b010)
  | .ldaxD => formatF1 (pattern 0b00 0b011 0b010)
  | .lda nn => formatF3 (pattern 0b00 0b111 0b010) nn
  | .staxB => formatF1 (pattern 0b00 0b000 0b010)
  | .staxD => formatF1 (pattern 0b00 0b010 0b010)
  | .sta nn => formatF3 (pattern 0b00 0b110 0b010) nn
  | .lxiB nn => formatF3 (pattern 0b00 0b000 0b001) nn
  | .lxiD nn => formatF3 (pattern 0b00 0b010 0b001) nn
  | .lxiH nn => formatF3 (pattern 0b00 0b100 0b001) nn
  | .lxiSP nn => formatF3 (pattern 0b00 0b110 0b001) nn
  | .lhld nn => formatF3 (pattern 0b00 0b101 0b010) nn
  | .shld nn => formatF3 (pattern 0b00 0b100 0b010) nn
  | .sphl => formatF1 (pattern 0b11 0b111 0b001)
  | .xchg => formatF1 (pattern 0b11 0b101 0b011)
  | .xthl => formatF1 (pattern 0b11 0b100 0b011)
  | .pushB => formatF1 (pattern 0b11 0b000 0b101)
  | .pushD => formatF1 (pattern 0b11 0b010 0b101)
  | .pushH => formatF1 (pattern 0b11 0b100 0b101)
  | .pushPSW => formatF1 (pattern 0b11 0b110 0b101)
  | .popB => formatF1 (pattern 0b11 0b000 0b001)
  | .popD => formatF1 (pattern 0b11 0b010 0b001)
  | .popH => formatF1 (pattern 0b11 0b100 0b001)
  | .popPSW => formatF1 (pattern 0b11 0b110 0b001)
  | .addR rs => formatF1 (pattern 0b10 0b000 rs.code)
  | .adi n => formatF2 (pattern 0b11 0b000 0b110) n
  | .addM => formatF1 (pattern 0b10 0b000 0b110)
  | .adcR rs => formatF1 (pattern 0b10 0b001 rs.code)
  | .aci n => formatF2 (pattern 0b11 0b001 0b110) n
  | .adcM => formatF1 (pattern 0b10 0b001 0b110)
  | .subR rs => formatF1 (pattern 0b10 0b010 rs.code)
  | .sui n => formatF2 (pattern 0b11 0b010 0b110) n
  | .subM => formatF1 (pattern 0b10 0b010 0b110)
  | .sbbR rs => formatF1 (pattern 0b10 0b011 rs.code)
  | .sbi n => formatF2 (pattern 0b11 0b011 0b110) n
  | .sbbM => formatF1 (pattern 0b10 0b011 0b110)
  | .cmpR rs => formatF1 (pattern 0b10 0b111 rs.code)
  | .cpi n => formatF2 (pattern 0b11 0b111 0b110) n
  | .cmpM => formatF1 (pattern 0b10 0b111 0b110)
  | .anaR rs => formatF1 (pattern 0b10 0b100 rs.code)
  | .ani n => formatF2 (pattern 0b11 0b100 0b110) n
  | .anaM => formatF1 (pattern 0b10 0b100 0b110)
  | .oraR rs => formatF1 (pattern 0b10 0b110 rs.code)
  | .ori n => formatF2 (pattern 0b11 0b110 0b110) n
  | .oraM => formatF1 (pattern 0b10 0b110 0b110)
  | .xraR rs => formatF1 (pattern 0b10 0b101 rs.code)
  | .xri n => formatF2 (pattern 0b11 0b101 0b110) n
  | .xraM => formatF1 (pattern 0b10 0b101 0b110)
  | .inrR rd => formatF1 (pattern 0b00 rd.code 0b100)
  | .inrM => formatF1 (pattern 0b00 0b110 0b100)
  | .dcrR rd => formatF1 (pattern 0b00 rd.code 0b101)
  | .dcrM => formatF1 (pattern 0b00 0b110 0b101)
  | .daa => formatF1 (pattern 0b00 0b100 0b111)
  | .cma => formatF1 (pattern 0b00 0b101 0b111)
  | .dadB => formatF1 (pattern 0b00 0b001 0b001)
  | .dadD => formatF1 (pattern 0b00 0b011 0b001)
  | .dadH => formatF1 (pattern 0b00 0b101 0b001)
  | .dadSP => formatF1 (pattern 0b00 0b111 0b001)
  | .inxB => formatF1 (pattern 0b00 0b000 0b011)
  | .inxD => formatF1 (pattern 0b00 0b010 0b011)
  | .inxH => formatF1 (pattern 0b00 0b100 0b011)
  | .inxSP => formatF1 (pattern 0b00 0b110 0b011)
  | .dcxB => formatF1 (pattern 0b00 0b001 0b011)
  | .dcxD => formatF1 (pattern 0b00 0b011 0b011)
  | .dcxH => formatF1 (pattern 0b00 0b101 0b011)
  | .dcxSP => formatF1 (pattern 0b00 0b111 0b011)
  | .cmc => formatF1 (pattern 0b00 0b111 0b111)
  | .stc => formatF1 (pattern 0b00 0b110 0b111)
  | .nop => formatF1 (pattern 0b00 0b000 0b000)
  | .hlt => formatF1 (pattern 0b01 0b110 0b110)
  | .di => formatF1 (pattern 0b11 0b110 0b011)
  | .ei => formatF1 (pattern 0b11 0b111 0b011)
  | .jmp nn => formatF3 (pattern 0b11 0b000 0b011) nn
  | .jnz nn => formatF3 (pattern 0b11 0b000 0b010) nn
  | .jz nn => formatF3 (pattern 0b11 0b001 0b010) nn
  | .jnc nn => formatF3 (pattern 0b11 0b010 0b010) nn
  | .jc nn => formatF3 (pattern 0b11 0b011 0b010) nn
  | .jpo nn => formatF3 (pattern 0b11 0b100 0b010) nn
  | .jpe nn => formatF3 (pattern 0b11 0b101 0b010) nn
  | .jp nn => formatF3 (pattern 0b11 0b110 0b010) nn
  | .jm nn => formatF3 (pattern 0b11 0b111 0b010) nn
  | .pchl => formatF1 (pattern 0b11 0b101 0b001)
  | .call nn => formatF3 (pattern 0b11 0b001 0b101) nn
  | .cnz nn => formatF3 (pattern 0b11 0b000 0b100) nn
  | .cz nn => formatF3 (pattern 0b11 0b001 0b100) nn
  | .cnc nn => formatF3 (pattern 0b11 0b010 0b100) nn
  | .cc nn => formatF3 (pattern 0b11 0b011 0b100) nn
  | .cpo nn => formatF3 (pattern 0b11 0b100 0b100) nn
  | .cpe nn => formatF3 (pattern 0b11 0b101 0b100) nn
  | .cp nn => formatF3 (pattern 0b11 0b110 0b100) nn
  | .cm nn => formatF3 (pattern 0b11 0b111 0b100) nn
  | .ret => formatF1 (pattern 0b11 0b001 0b001)
  | .rnz => formatF1 (pattern 0b11 0b000 0b000)
  | .rz => formatF1 (pattern 0b11 0b001 0b000)
  | .rnc => formatF1 (pattern 0b11 0b010 0b000)
  | .rc => formatF1 (pattern 0b11 0b011 0b000)
  | .rpo => formatF1 (pattern 0b11 0b100 0b000)
  | .rpe => formatF1 (pattern 0b11 0b101 0b000)
  | .rp => formatF1 (pattern 0b11 0b110 0b000)
  | .rm => formatF1 (pattern 0b11 0b111 0b000)
  | .rst i => formatF1 (pattern 0b11 (BitVec.ofNat 3 i) 0b111)
  | .rlc => formatF1 (pattern 0b00 0b000 0b111)
  | .ral => formatF1 (pattern 0b00 0b010 0b111)
  | .rrc => formatF1 (pattern 0b00 0b001 0b111)
  | .rar => formatF1 (pattern 0b00 0b011 0b111)
  | .inPort n => formatF2 (pattern 0b11 0b011 0b011) n
  | .outPort n => formatF2 (pattern 0b11 0b010 0b011) n

/-- The instruction the decoder reads from the bits `w`, bit 0 the least significant bit of the first
byte, a later byte's bits counting on from it; bits from `nbits` on are 0. -/
def decodeTableWord (nbits w : Nat) : Option Instr :=
  let v := w % 2 ^ nbits
  match decode [BitVec.ofNat 8 v, BitVec.ofNat 8 (v / 2 ^ 8), BitVec.ofNat 8 (v / 2 ^ 16)] with
  | .ok (i, _) => some i
  | .error _ => none

end Sys2Proof
end

