-- ==== Sys2Proof/Machine/State.lean ====
section
/-! DEFINITION. The machine's state as plain data (10_state.md R35), its faults and refusals, and the
state right after reset (R37). -/

namespace Sys2Proof.Machine

open Sys2Proof.Config (Region EnvEvent IoEvent)

/-- The five flags (10_state.md R26): sign, zero, half carry, parity, carry. -/
structure Flags where
  /-- F.S, sign. -/
  s : Bool
  /-- F.Z, zero. -/
  z : Bool
  /-- F.H, half carry. -/
  h : Bool
  /-- F.P, parity: set for an even number of 1 bits. -/
  p : Bool
  /-- F.C, carry, also called CY. -/
  c : Bool
deriving DecidableEq, Repr

/-- Memory as (address, byte) pairs in one canonical form: addresses strictly rising and below 65536,
no entry equal to `Config.unlistedByte` (`Memory.wf` in Machine/Memory.lean). -/
abbrev Memory := List Host.Cell

/-- The whole state: the components of R35, then the platform and environment parameters of the spec
(R51, R52, R305) as data, then the model's own draw index. -/
structure State where
  /-- A, the accumulator (R20, R21). -/
  a : Byte
  /-- B, the high half of BC (R20, R22). -/
  b : Byte
  /-- C, the low half of BC. -/
  c : Byte
  /-- D, the high half of DE. -/
  d : Byte
  /-- E, the low half of DE. -/
  e : Byte
  /-- H, the high half of HL. -/
  h : Byte
  /-- L, the low half of HL. -/
  l : Byte
  /-- SP, the address of the last byte pushed (R23). -/
  sp : Word
  /-- pc, the address of the next instruction's first byte (R24). -/
  pc : Word
  /-- The five flags (R26). -/
  flags : Flags
  /-- IFF: interrupts are accepted only when it is set (R30). -/
  iff : Bool
  /-- `halted` (R33). -/
  halted : Bool
  /-- `int_inhibit` (R34). -/
  intInhibit : Bool
  /-- `mem` (20_memory.md R50). -/
  mem : Memory
  /-- `MemMap` (R51): the first range that holds an address gives its kind; an address in no range is
  RAM. No step changes it. -/
  memMap : List Region
  /-- The answers `IoEnv` will give to the coming `IoRead`s, first one first (R52). -/
  ioAnswers : List Byte
  /-- The event history, oldest first (R52). -/
  history : List IoEvent
  /-- What the environment presents at the coming instruction boundaries, first one first; after the
  last, `quiet` for ever (60_exceptions.md R305). -/
  events : List EnvEvent
  /-- The MODEL's own: where the free values of Config are drawn next (log 10). -/
  drawIndex : Nat
deriving DecidableEq, Repr

/-- The one fault of the model (00_scope.md R15, 60_exceptions.md R300). -/
inductive Fault where
  /-- `IllegalOpcode(op)`: raised by `step` when the byte at pc is one of the twelve values that have
  no row (R87). No state changes. Safe: the chip may do anything here (D11). -/
  | illegalOpcode (op : Byte)
deriving DecidableEq, Repr

/-- Why an instruction has no meaning. -/
inductive Refusal where
  /-- The instruction of this mnemonic is not modelled; raised only by such an arm of `exec`. Safe.
  No arm raises it: every instruction has its meaning. -/
  | notModelled (mnemonic : String)
deriving DecidableEq, Repr

/-- What a step or a meaning answers. -/
abbrev Result := Host.Outcome State Fault Refusal

/-- The machine right after reset (R37): pc, IFF, halted and int_inhibit are the spec's. The spec
leaves the other registers and flags unspecified; zero is the model's choice (log 3, unsafe). So are
the empty memory list (log 5), the all-RAM map (log 6), no stored I/O answers and an empty history
(log 8), no events (log 9) and the first draw index (log 10). -/
def State.reset : State where
  a := 0x00#8
  b := 0x00#8
  c := 0x00#8
  d := 0x00#8
  e := 0x00#8
  h := 0x00#8
  l := 0x00#8
  sp := 0x0000#16
  pc := 0x0000#16
  flags := ⟨false, false, false, false, false⟩
  iff := false
  halted := false
  intInhibit := false
  mem := []
  memMap := []
  ioAnswers := []
  history := []
  events := []
  drawIndex := 0

end Sys2Proof.Machine
end

