-- ==== Sys2Proof/Machine/Flags.lean ====
section
/-! DEFINITION. Every flag computation of the spec: SZP, ADD8, SUB8, the condition helper, the
decimal adjust and the Flags byte (00_scope.md R10 to R14, 10_state.md R28, 42_alu8.md R186). -/

namespace Sys2Proof.Machine

open Sys2Proof.Config (SubH)

/-- How many of the eight bits are 1. -/
def onesCount (v : Byte) : Nat :=
  (v.getLsbD 0).toNat + (v.getLsbD 1).toNat + (v.getLsbD 2).toNat + (v.getLsbD 3).toNat +
    (v.getLsbD 4).toNat + (v.getLsbD 5).toNat + (v.getLsbD 6).toNat + (v.getLsbD 7).toNat

/-- `parity8(v)`: set if the number of 1 bits is even (R10). -/
def parity8 (v : Byte) : Bool := onesCount v % 2 == 0

/-- `SZP(v)` (R10): S, Z and P from a result; H and C stay. -/
def Flags.szp (f : Flags) (v : Byte) : Flags :=
  { f with s := v.getLsbD 7, z := decide (v = 0x00#8), p := parity8 v }

/-- What the 8-bit adder and subtracter return: the result, the value for C, the value for H. -/
structure AluOut where
  /-- The 8-bit result. -/
  res : Byte
  /-- Carry out of bit 7, or borrow out. -/
  carry : Bool
  /-- The half carry. -/
  half : Bool
deriving DecidableEq, Repr

/-- `ADD8(a, b, cin)` (R11). -/
def add8 (a b : Byte) (cin : Bool) : AluOut :=
  let sum := a.toNat + b.toNat + cin.toNat
  { res := BitVec.ofNat 8 sum
    carry := decide (sum > 255)
    half := decide (a.toNat % 16 + b.toNat % 16 + cin.toNat > 15) }

/-- `SUB8(a, b, bin)` (R12) under either candidate for `SUB_H`. -/
def sub8 (conv : SubH) (a b : Byte) (bin : Bool) : AluOut :=
  let diff : Int := (a.toNat : Int) - b.toNat - bin.toNat
  let borrow := decide (((a.toNat % 16 : Nat) : Int) - ((b.toNat % 16 : Nat) : Int) - bin.toNat < 0)
  { res := BitVec.ofInt 8 diff
    carry := decide (diff < 0)
    half := match conv with
      | .borrow => borrow
      | .carry => !borrow }

/-- All five flags from an adder or subtracter outcome (42_alu8.md R151, R152). -/
def Flags.ofAlu (f : Flags) (o : AluOut) : Flags :=
  { f.szp o.res with h := o.half, c := o.carry }

/-- S, Z, P, H from an outcome, C as it was: increment and decrement (R154). -/
def Flags.ofStep (f : Flags) (o : AluOut) : Flags :=
  { f.szp o.res with h := o.half }

/-- S, Z, P from a result, H as it was, C cleared: the logic group (R153). -/
def Flags.ofLogic (f : Flags) (v : Byte) : Flags :=
  { f.szp v with c := false }

/-- The correction that DAA adds and the value it gives C (R186). -/
def daaCorrection (acc : Byte) (f : Flags) : Byte × Bool :=
  let lo4 := acc.toNat % 16
  let hi4 := acc.toNat / 16
  let low := if f.h || decide (lo4 > 9) then 0x06#8 else 0x00#8
  if f.c || decide (hi4 > 9) || (decide (hi4 = 9) && decide (lo4 > 9)) then (low ||| 0x60#8, true)
  else (low, f.c)

/-- DAA on an accumulator and flags: the result and the value of H and C (R186). -/
def daa8 (acc : Byte) (f : Flags) : AluOut :=
  let corr := daaCorrection acc f
  { res := BitVec.ofNat 8 (acc.toNat + corr.1.toNat)
    carry := corr.2
    half := decide (acc.toNat % 16 + corr.1.toNat % 16 > 15) }

/-- The eight conditions of conditional jumps, calls and returns (R14). -/
inductive Cond where
  | nz | z | nc | c | po | pe | p | m
deriving DecidableEq, Repr

/-- `cond(ccc)`: the flag test each condition stands for (R14). `p` and `m` test S, not P. -/
def Cond.holds (k : Cond) (f : Flags) : Bool :=
  match k with
  | .nz => !f.z
  | .z => f.z
  | .nc => !f.c
  | .c => f.c
  | .po => !f.p
  | .pe => f.p
  | .p => !f.s
  | .m => f.s

/-- `FlagsByte()` (10_state.md R28): S Z f5 H f3 P f1 C, the three fill bits given as `f5 f3 f1`. -/
def Flags.toByte (f : Flags) (fill : BitVec 3) : Byte :=
  BitVec.ofBool f.s ++ BitVec.ofBool f.z ++ BitVec.ofBool (fill.getLsbD 2) ++ BitVec.ofBool f.h ++
    BitVec.ofBool (fill.getLsbD 1) ++ BitVec.ofBool f.p ++ BitVec.ofBool (fill.getLsbD 0) ++
    BitVec.ofBool f.c

/-- `SetFlags(v)` (R28): bits 7, 6, 4, 2, 0; bits 5, 3, 1 are discarded. -/
def Flags.ofByte (v : Byte) : Flags where
  s := v.getLsbD 7
  z := v.getLsbD 6
  h := v.getLsbD 4
  p := v.getLsbD 2
  c := v.getLsbD 0

end Sys2Proof.Machine
end

