-- ==== Sys2Proof/Machine/Memory.lean ====
section
/-! DEFINITION. The byte store behind `mem` (20_memory.md R50): canonical form, load, store. -/

namespace Sys2Proof.Machine

/-- The canonical form from address `low` up. -/
def Memory.wfFrom (low : Nat) : Memory → Bool
  | [] => true
  | (k, v) :: m =>
    decide (low ≤ k) && decide (k < 65536) && decide (v ≠ Config.unlistedByte) && wfFrom (k + 1) m

/-- The canonical form of a memory: addresses strictly rising, inside the address space, and no entry
equal to what an unlisted address reads as. -/
def Memory.wf (m : Memory) : Bool := m.wfFrom 0

/-- The byte at an address. -/
def Memory.load : Memory → Nat → Byte
  | [], _ => Config.unlistedByte
  | (k, v) :: m, a => if k = a then v else load m a

/-- The memory without any entry for an address. -/
def Memory.erase : Memory → Nat → Memory
  | [], _ => []
  | (k, v) :: m, a => if k = a then erase m a else (k, v) :: erase m a

/-- The memory with an entry added before the first higher address. -/
def Memory.insert : Memory → Nat → Byte → Memory
  | [], a, v => [(a, v)]
  | (k, w) :: m, a, v => if a < k then (a, v) :: (k, w) :: m else (k, w) :: insert m a v

/-- The memory with the byte at `a` set to `v`, in canonical form again. -/
def Memory.store (m : Memory) (a : Nat) (v : Byte) : Memory :=
  if v = Config.unlistedByte then Memory.erase m a else Memory.insert (Memory.erase m a) a v

end Sys2Proof.Machine
end

