-- ==== Sys2Proof/Machine/Operands.lean ====
section
/-! DEFINITION. The operand forms of 30_encoding.md R85: registers, pairs, memory bytes. -/

namespace Sys2Proof.Machine

open Sys2Proof.Config (MemKind Region Access)

/-- `x[i]` (00_scope.md R7). -/
def State.reg (s : State) : Reg8 → Byte
  | .b => s.b
  | .c => s.c
  | .d => s.d
  | .e => s.e
  | .h => s.h
  | .l => s.l
  | .a => s.a

/-- `x[i] <- v` (R7). -/
def State.setReg (s : State) (r : Reg8) (v : Byte) : State :=
  match r with
  | .b => { s with b := v }
  | .c => { s with c := v }
  | .d => { s with d := v }
  | .e => { s with e := v }
  | .h => { s with h := v }
  | .l => { s with l := v }
  | .a => { s with a := v }

/-- `BC` (10_state.md R22). -/
def State.bc (s : State) : Word := join s.b s.c

/-- `DE` (R22). -/
def State.de (s : State) : Word := join s.d s.e

/-- `HL` (R22). -/
def State.hl (s : State) : Word := join s.h s.l

/-- `BC <- v` (00_scope.md R7). -/
def State.setBC (s : State) (v : Word) : State := { s with b := hi v, c := lo v }

/-- `DE <- v` (R7). -/
def State.setDE (s : State) (v : Word) : State := { s with d := hi v, e := lo v }

/-- `HL <- v` (R7). -/
def State.setHL (s : State) (v : Word) : State := { s with h := hi v, l := lo v }

/-- `SP <- v` (10_state.md R23). -/
def State.setSP (s : State) (v : Word) : State := { s with sp := v }

/-- What a map puts at an address: the kind of the first range that holds it; RAM in no range. -/
def kindIn : List Region → Word → MemKind
  | [], _ => .ram
  | g :: gs, addr =>
    if g.first.toNat ≤ addr.toNat ∧ addr.toNat ≤ g.last.toNat then g.kind else kindIn gs addr

/-- `MemMap(a)` (20_memory.md R51). -/
def State.kindAt (s : State) (addr : Word) : MemKind := kindIn s.memMap addr

/-- `mem[a]` (R50): the stored byte, whatever the map says of the address. -/
def State.byteAt (s : State) (addr : Word) : Byte := Memory.load s.mem addr.toNat

/-- A read of one byte (R50, R59): the stored byte, or a draw where nothing is there. -/
def State.readAs (s : State) (kind : Access) (addr : Word) : Byte :=
  match s.kindAt addr with
  | .nothing => Config.unbackedByte s.drawIndex kind addr
  | _ => s.byteAt addr

/-- `MemRead(a, 1)` of an instruction's operand (R50, R59). -/
def State.memRead (s : State) (addr : Word) : Byte := s.readAs .data addr

/-- `MemRead(a, 1)` of an instruction byte (10_state.md R24). -/
def State.fetchByte (s : State) (addr : Word) : Byte := s.readAs .fetch addr

/-- `MemWrite(a, 1, v)` (R50, R59): only RAM changes. -/
def State.memWrite (s : State) (addr : Word) (v : Byte) : State :=
  match s.kindAt addr with
  | .ram => { s with mem := Memory.store s.mem addr.toNat v }
  | _ => s

end Sys2Proof.Machine
end

