-- ==== Sys2Proof/Machine/Ops.lean ====
section
/-! DEFINITION. The operations instructions share: ending an instruction, the stack, I/O, taking an
interrupt and returning, reset, and what happens at an instruction boundary. -/

namespace Sys2Proof.Machine

open Sys2Proof.Config (EnvEvent IoEvent)

/-- The end of an instruction that goes on at `target`: `pc <- target`, and `int_inhibit <- 0` as after
every instruction but EI and DI (10_state.md R24, R34). The draw index moves on (log 10). -/
def State.goto (s : State) (target : Word) : State :=
  { s with pc := target, intInhibit := false, drawIndex := s.drawIndex + 1 }

/-- The address of the following instruction, `mod16(pc_at_start + length)` (00_scope.md R9). -/
def State.nextPc (s : State) (len : Nat) : Word := s.pc + BitVec.ofNat 16 len

/-- The end of an instruction of `len` bytes that does not assign pc: `pc <- next` (R9, R24). -/
def State.finish (s : State) (len : Nat) : State := s.goto (s.nextPc len)

/-- `A <- v` with the flags written. -/
def State.setAcc (s : State) (v : Byte) (f : Flags) : State := { s with a := v, flags := f }

/-- The flags written. -/
def State.setFlags (s : State) (f : Flags) : State := { s with flags := f }

/-- The carry flag written, the other four as they were. -/
def State.setCarry (s : State) (v : Bool) : State := { s with flags := { s.flags with c := v } }

/-- The add group: `A <- A + b + cin` with the flags of 42_alu8.md R151. -/
def State.addAcc (s : State) (b : Byte) (cin : Bool) : State :=
  s.setAcc (add8 s.a b cin).res (s.flags.ofAlu (add8 s.a b cin))

/-- The subtract group: `A <- A - b - bin` with the flags of R152. -/
def State.subAcc (s : State) (b : Byte) (bin : Bool) : State :=
  s.setAcc (sub8 Config.subH s.a b bin).res (s.flags.ofAlu (sub8 Config.subH s.a b bin))

/-- The compare group: the flags of `A - b` (R152); A is not written. -/
def State.compareAcc (s : State) (b : Byte) : State :=
  s.setFlags (s.flags.ofAlu (sub8 Config.subH s.a b false))

/-- The logic group: `A <- v` with the flags of R153. -/
def State.logicAcc (s : State) (v : Byte) : State := s.setAcc v (s.flags.ofLogic v)

/-- DAD: `HL <- HL + v`, C the carry out of bit 15 (43_arith16.md R200). -/
def State.addHL (s : State) (v : Word) : State :=
  let sum := s.hl.toNat + v.toNat
  (s.setHL (BitVec.ofNat 16 sum)).setCarry (decide (sum > 65535))

/-- `PUSH16(v)` (00_scope.md R13): the high byte first, at the higher address. -/
def State.push16 (s : State) (v : Word) : State :=
  let s1 := s.setSP (s.sp - 1)
  let s2 := s1.memWrite s1.sp (hi v)
  let s3 := s2.setSP (s2.sp - 1)
  s3.memWrite s3.sp (lo v)

/-- The value `POP16()` returns (R13): the low byte from the lower address. -/
def State.top16 (s : State) : Word := join (s.memRead (s.sp + 1)) (s.memRead s.sp)

/-- What `POP16()` does to the state (R13): SP moves up by two; memory stays. -/
def State.drop16 (s : State) : State := s.setSP (s.sp + 1 + 1)

/-- A call (46_call_return.md R250): the return address is pushed, pc becomes the target. -/
def State.call (s : State) (ret target : Word) : State := (s.push16 ret).goto target

/-- A return (R250, R260), which is also the return from an interrupt handler (60_exceptions.md R311):
pc is loaded from the stack; IFF is not touched. -/
def State.popPc (s : State) : State := s.drop16.goto s.top16

/-- The restart address `8 * i` (46_call_return.md R277, 60_exceptions.md R310). -/
def restartAddress (i : Nat) : Word := BitVec.ofNat 16 (8 * i)

/-- A conditional jump of three bytes (45_jump.md R230). -/
def State.jumpIf (s : State) (k : Cond) (target : Word) : State :=
  if k.holds s.flags then s.goto target else s.finish 3

/-- A conditional call of three bytes (46_call_return.md R250). -/
def State.callIf (s : State) (k : Cond) (target : Word) : State :=
  if k.holds s.flags then s.call (s.nextPc 3) target else s.finish 3

/-- A conditional return of one byte (R250). -/
def State.returnIf (s : State) (k : Cond) : State :=
  if k.holds s.flags then s.popPc else s.finish 1

/-- The answer the environment gives to `IoRead(port)` (20_memory.md R52): the next one listed, or a
free value when none is. -/
def State.ioAnswer (s : State) (port : Byte) : Byte :=
  match s.ioAnswers with
  | v :: _ => v
  | [] => Config.ioAnswer s.drawIndex port

/-- What `IoRead(port)` does to the state: the answer is used up and the event recorded (R52). -/
def State.ioRead (s : State) (port : Byte) : State :=
  { s with
    ioAnswers := s.ioAnswers.tail
    history := s.history ++ [IoEvent.read port (s.ioAnswer port)] }

/-- `IoWrite(port, v)`: recorded, no effect on the processor (R52). -/
def State.ioWrite (s : State) (port v : Byte) : State :=
  { s with history := s.history ++ [IoEvent.write port v] }

/-- TAKING AN INTERRUPT with restart number `i` (60_exceptions.md R307): IFF and halted cleared, pc
pushed, pc at the restart address, int_inhibit cleared. Nothing else is saved (R302). -/
def State.acceptInterrupt (s : State) (i : Fin 8) : State :=
  let s1 := { s with iff := false, halted := false }
  s1.call s1.pc (restartAddress i.val)

/-- The effect of a reset (10_state.md R37, 70_reset_and_hazards.md R330, R331) with the values the
unspecified components take. Memory, the platform and the environment stay. -/
def State.resetTo (s : State) (regs : BitVec 3 → Byte) (sp : Word) (f : Flags) : State :=
  { s with
    a := regs Reg8.a.code
    b := regs Reg8.b.code
    c := regs Reg8.c.code
    d := regs Reg8.d.code
    e := regs Reg8.e.code
    h := regs Reg8.h.code
    l := regs Reg8.l.code
    sp := sp
    pc := 0x0000#16
    flags := f
    iff := false
    halted := false
    intInhibit := false
    drawIndex := s.drawIndex + 1 }

/-- A reset in a run: the unspecified components are free values (log 4). -/
def State.applyReset (s : State) : State :=
  s.resetTo (Config.resetReg s.drawIndex) (Config.resetSp s.drawIndex)
    (Flags.ofByte (Config.resetFlags s.drawIndex))

/-- What the environment presents at this boundary (60_exceptions.md R305). -/
def State.presented (s : State) : EnvEvent := s.events.headD .quiet

/-- The state once this boundary has been presented: the next one is the following entry. -/
def State.takeEvent (s : State) : State := { s with events := s.events.tail }

/-- What happens at an instruction boundary. -/
inductive Boundary where
  /-- The reset is applied. -/
  | reset
  /-- The interrupt request with restart number `i` is accepted. -/
  | accept (i : Fin 8)
  /-- The processor is halted and nothing changes. -/
  | stutter
  /-- The next instruction is fetched and executed. -/
  | execute
deriving DecidableEq, Repr

/-- The order of R308 and R323: reset, else an acceptable interrupt (R306), else nothing if halted,
else the next instruction. -/
def State.boundary (s : State) : Boundary :=
  match s.presented with
  | .reset => .reset
  | .request i =>
    if s.iff && !s.intInhibit then .accept i else if s.halted then .stutter else .execute
  | .quiet => if s.halted then .stutter else .execute

/-- The instruction at pc (10_state.md R24): its bytes are read at pc and the addresses after it, with
wrap. `none` when the first byte is one of the twelve values of 30_encoding.md R87. -/
def State.fetch (s : State) : Option Instr :=
  decodeInstr (s.fetchByte s.pc) (s.fetchByte (s.pc + 1)) (s.fetchByte (s.pc + 2))

/-- The state with a byte put in memory from outside, as a program load does, at an address the
processor can read afterwards (log 12). -/
def State.loadByte (s : State) (addr : Word) (v : Byte) : State :=
  { s with
    mem := Memory.store s.mem addr.toNat v
    memMap := match s.kindAt addr with
      | .nothing => ⟨addr, addr, .ram⟩ :: s.memMap
      | _ => s.memMap }

/-- The state with the boundary ahead clear, so that the next step fetches: not halted, and no reset or
request presented. -/
def State.clearBoundary (s : State) : State :=
  { s with
    halted := false
    events := match s.events with
      | [] => []
      | _ :: es => .quiet :: es }

end Sys2Proof.Machine
end

