-- ==== Sys2Proof/Machine/Alu8.lean ====
section
/-! DEFINITION. The thirty 8-bit arithmetic and logic instructions (42_alu8.md). The second operand is a
register, the byte at HL or the immediate (R150). -/

namespace Sys2Proof.Machine

/-- `ADD r` (R157): "A <- A + r". -/
def execAddR (rs : Reg8) (s : State) : Result :=
  .next ((s.addAcc (s.reg rs) false).finish 1)

/-- `ADI n` (R158): "A <- A + n". -/
def execAdi (n : Byte) (s : State) : Result :=
  .next ((s.addAcc n false).finish 2)

/-- `ADD M` (R159): "A <- A + (HL)". -/
def execAddM (s : State) : Result :=
  .next ((s.addAcc (s.memRead s.hl) false).finish 1)

/-- `ADC r` (R160): "A <- A + r + CY". -/
def execAdcR (rs : Reg8) (s : State) : Result :=
  .next ((s.addAcc (s.reg rs) s.flags.c).finish 1)

/-- `ACI n` (R161): "A <- A + n + CY". -/
def execAci (n : Byte) (s : State) : Result :=
  .next ((s.addAcc n s.flags.c).finish 2)

/-- `ADC M` (R162): "A <- A + (HL) + CY". -/
def execAdcM (s : State) : Result :=
  .next ((s.addAcc (s.memRead s.hl) s.flags.c).finish 1)

/-- `SUB r` (R163): "A <- A - r". -/
def execSubR (rs : Reg8) (s : State) : Result :=
  .next ((s.subAcc (s.reg rs) false).finish 1)

/-- `SUI n` (R164): "A <- A - n". -/
def execSui (n : Byte) (s : State) : Result :=
  .next ((s.subAcc n false).finish 2)

/-- `SUB M` (R165): "A <- A - (HL)". -/
def execSubM (s : State) : Result :=
  .next ((s.subAcc (s.memRead s.hl) false).finish 1)

/-- `SBB r` (R166): "A <- A - r - CY". -/
def execSbbR (rs : Reg8) (s : State) : Result :=
  .next ((s.subAcc (s.reg rs) s.flags.c).finish 1)

/-- `SBI n` (R167): "A <- A - n - CY". -/
def execSbi (n : Byte) (s : State) : Result :=
  .next ((s.subAcc n s.flags.c).finish 2)

/-- `SBB M` (R168): "A <- A - (HL) - CY". -/
def execSbbM (s : State) : Result :=
  .next ((s.subAcc (s.memRead s.hl) s.flags.c).finish 1)

/-- `CMP r` (R169): "A - r". -/
def execCmpR (rs : Reg8) (s : State) : Result :=
  .next ((s.compareAcc (s.reg rs)).finish 1)

/-- `CPI n` (R170): "A - n". -/
def execCpi (n : Byte) (s : State) : Result :=
  .next ((s.compareAcc n).finish 2)

/-- `CMP M` (R171): "A - (HL)". -/
def execCmpM (s : State) : Result :=
  .next ((s.compareAcc (s.memRead s.hl)).finish 1)

/-- `ANA r` (R172): "A <- A and r". -/
def execAnaR (rs : Reg8) (s : State) : Result :=
  .next ((s.logicAcc (s.a &&& s.reg rs)).finish 1)

/-- `ANI n` (R173): "A <- A and n". -/
def execAni (n : Byte) (s : State) : Result :=
  .next ((s.logicAcc (s.a &&& n)).finish 2)

/-- `ANA M` (R174): "A <- A and (HL)". -/
def execAnaM (s : State) : Result :=
  .next ((s.logicAcc (s.a &&& s.memRead s.hl)).finish 1)

/-- `ORA r` (R175): "A <- A or r". -/
def execOraR (rs : Reg8) (s : State) : Result :=
  .next ((s.logicAcc (s.a ||| s.reg rs)).finish 1)

/-- `ORI n` (R176): "A <- A or n". -/
def execOri (n : Byte) (s : State) : Result :=
  .next ((s.logicAcc (s.a ||| n)).finish 2)

/-- `ORA M` (R177): "A <- A or (HL)". -/
def execOraM (s : State) : Result :=
  .next ((s.logicAcc (s.a ||| s.memRead s.hl)).finish 1)

/-- `XRA r` (R178): "A <- A xor r". -/
def execXraR (rs : Reg8) (s : State) : Result :=
  .next ((s.logicAcc (s.a ^^^ s.reg rs)).finish 1)

/-- `XRI n` (R179): "A <- A xor n". -/
def execXri (n : Byte) (s : State) : Result :=
  .next ((s.logicAcc (s.a ^^^ n)).finish 2)

/-- `XRA M` (R180): "A <- A xor (HL)". -/
def execXraM (s : State) : Result :=
  .next ((s.logicAcc (s.a ^^^ s.memRead s.hl)).finish 1)

/-- `INR r` (R181): "r <- r + 1". -/
def execInrR (rd : Reg8) (s : State) : Result :=
  .next (((s.setReg rd (add8 (s.reg rd) 1 false).res).setFlags
    (s.flags.ofStep (add8 (s.reg rd) 1 false))).finish 1)

/-- `INR M` (R182): "(HL) <- (HL) + 1". -/
def execInrM (s : State) : Result :=
  .next (((s.memWrite s.hl (add8 (s.memRead s.hl) 1 false).res).setFlags
    (s.flags.ofStep (add8 (s.memRead s.hl) 1 false))).finish 1)

/-- `DCR r` (R183): "r <- r - 1". -/
def execDcrR (rd : Reg8) (s : State) : Result :=
  .next (((s.setReg rd (sub8 Config.subH (s.reg rd) 1 false).res).setFlags
    (s.flags.ofStep (sub8 Config.subH (s.reg rd) 1 false))).finish 1)

/-- `DCR M` (R184): "(HL) <- (HL) - 1". -/
def execDcrM (s : State) : Result :=
  .next (((s.memWrite s.hl (sub8 Config.subH (s.memRead s.hl) 1 false).res).setFlags
    (s.flags.ofStep (sub8 Config.subH (s.memRead s.hl) 1 false))).finish 1)

/-- `DAA` (R186): the decimal adjust. -/
def execDaa (s : State) : Result :=
  .next ((s.setAcc (daa8 s.a s.flags).res (s.flags.ofAlu (daa8 s.a s.flags))).finish 1)

/-- `CMA` (R187): A complemented; no flag changes. -/
def execCma (s : State) : Result :=
  .next ((s.setReg .a (~~~s.a)).finish 1)

end Sys2Proof.Machine
end

