-- ==== Sys2Proof/Machine/Arith16.lean ====
section
/-! DEFINITION. The twelve 16-bit arithmetic instructions (43_arith16.md). DAD writes C only, INX and DCX no
flag (R200). -/

namespace Sys2Proof.Machine

/-- `DAD B` (R201): "HL <- HL + BC". -/
def execDadB (s : State) : Result :=
  .next ((s.addHL s.bc).finish 1)

/-- `DAD D` (R202): "HL <- HL + DE". -/
def execDadD (s : State) : Result :=
  .next ((s.addHL s.de).finish 1)

/-- `DAD H` (R203): "HL <- HL + HL". -/
def execDadH (s : State) : Result :=
  .next ((s.addHL s.hl).finish 1)

/-- `DAD SP` (R204): "HL <- HL + SP". -/
def execDadSP (s : State) : Result :=
  .next ((s.addHL s.sp).finish 1)

/-- `INX B` (R205): "BC <- BC + 1". -/
def execInxB (s : State) : Result :=
  .next ((s.setBC (s.bc + 1)).finish 1)

/-- `INX D` (R206): "DE <- DE + 1". -/
def execInxD (s : State) : Result :=
  .next ((s.setDE (s.de + 1)).finish 1)

/-- `INX H` (R207): "HL <- HL + 1". -/
def execInxH (s : State) : Result :=
  .next ((s.setHL (s.hl + 1)).finish 1)

/-- `INX SP` (R208): "SP <- SP + 1". -/
def execInxSP (s : State) : Result :=
  .next ((s.setSP (s.sp + 1)).finish 1)

/-- `DCX B` (R209): "BC <- BC - 1". -/
def execDcxB (s : State) : Result :=
  .next ((s.setBC (s.bc - 1)).finish 1)

/-- `DCX D` (R210): "DE <- DE - 1". -/
def execDcxD (s : State) : Result :=
  .next ((s.setDE (s.de - 1)).finish 1)

/-- `DCX H` (R211): "HL <- HL - 1". -/
def execDcxH (s : State) : Result :=
  .next ((s.setHL (s.hl - 1)).finish 1)

/-- `DCX SP` (R212): "SP <- SP - 1". -/
def execDcxSP (s : State) : Result :=
  .next ((s.setSP (s.sp - 1)).finish 1)

end Sys2Proof.Machine
end

