-- ==== Sys2Proof/Machine/CallReturn.lean ====
section
/-! DEFINITION. The nineteen calls, returns and restarts (46_call_return.md). -/

namespace Sys2Proof.Machine

/-- `CALL nn` (R251): "SP <- SP - 1; (SP) <- PCH; SP <- SP - 1; (SP) <- PCL; PC <- nn". -/
def execCall (nn : Word) (s : State) : Result :=
  .next (s.call (s.nextPc 3) nn)

/-- `CNZ nn` (R252): "if NZ is true, SP <- SP - 1; (SP) <- PCH; SP <- SP - 1; (SP) <- PCL; PC <-
nn". -/
def execCnz (nn : Word) (s : State) : Result :=
  .next (s.callIf .nz nn)

/-- `CZ nn` (R253): "if Z is true, see above". -/
def execCz (nn : Word) (s : State) : Result :=
  .next (s.callIf .z nn)

/-- `CNC nn` (R254): "if NC is true, see above". -/
def execCnc (nn : Word) (s : State) : Result :=
  .next (s.callIf .nc nn)

/-- `CC nn` (R255, 90_conflicts.md C2): call if C is 1. -/
def execCc (nn : Word) (s : State) : Result :=
  .next (s.callIf .c nn)

/-- `CPO nn` (R256): "if PO is true, see above". -/
def execCpo (nn : Word) (s : State) : Result :=
  .next (s.callIf .po nn)

/-- `CPE nn` (R257): "if PE is true, see above". -/
def execCpe (nn : Word) (s : State) : Result :=
  .next (s.callIf .pe nn)

/-- `CP nn` (R258): "if P is true, see above". -/
def execCp (nn : Word) (s : State) : Result :=
  .next (s.callIf .p nn)

/-- `CM nn` (R259): "if M is true, see above". -/
def execCm (nn : Word) (s : State) : Result :=
  .next (s.callIf .m nn)

/-- `RET` (R260): "PCL <- (SP); SP <- SP + 1; PCH <- (SP); SP <- SP + 1". -/
def execRet (s : State) : Result :=
  .next (s.popPc)

/-- `RNZ` (R261): "if NZ is true, PCL <- (SP); SP <- SP + 1; PCH <- (SP); SP <- SP + 1". -/
def execRnz (s : State) : Result :=
  .next (s.returnIf .nz)

/-- `RZ` (R262): "if Z is true, PCL <- (SP); SP <- SP + 1; PCH <- (SP); SP <- SP + 1". -/
def execRz (s : State) : Result :=
  .next (s.returnIf .z)

/-- `RNC` (R263): "if NC is true, PCL <- (SP); SP <- SP + 1; PCH <- (SP); SP <- SP + 1". -/
def execRnc (s : State) : Result :=
  .next (s.returnIf .nc)

/-- `RC` (R264): "if C is true, PCL <- (SP); SP <- SP + 1; PCH <- (SP); SP <- SP + 1". -/
def execRc (s : State) : Result :=
  .next (s.returnIf .c)

/-- `RPO` (R265): "if PO is true, PCL <- (SP); SP <- SP + 1; PCH <- (SP); SP <- SP + 1". -/
def execRpo (s : State) : Result :=
  .next (s.returnIf .po)

/-- `RPE` (R266): "if PE is true, PCL <- (SP); SP <- SP + 1; PCH <- (SP); SP <- SP + 1". -/
def execRpe (s : State) : Result :=
  .next (s.returnIf .pe)

/-- `RP` (R267): "if P is true, PCL <- (SP); SP <- SP + 1; PCH <- (SP); SP <- SP + 1". -/
def execRp (s : State) : Result :=
  .next (s.returnIf .p)

/-- `RM` (R268): "if M is true, PCL <- (SP); SP <- SP + 1; PCH <- (SP); SP <- SP + 1". -/
def execRm (s : State) : Result :=
  .next (s.returnIf .m)

/-- `RST i` (R277): "SP <- SP - 1; (SP) <- PCH; SP <- SP - 1; (SP) <- PCL; PC <- p". -/
def execRst (i : Nat) (s : State) : Result :=
  .next (s.call (s.nextPc 1) (restartAddress i))

end Sys2Proof.Machine
end

