-- ==== Sys2Proof/Machine/Control.lean ====
section
/-! DEFINITION. The six CPU control instructions (44_cpu_control.md). -/

namespace Sys2Proof.Machine

/-- `CMC` (R221): the carry flag complemented. -/
def execCmc (s : State) : Result :=
  .next ((s.setCarry (!s.flags.c)).finish 1)

/-- `STC` (R222): "CY <- 1". -/
def execStc (s : State) : Result :=
  .next ((s.setCarry true).finish 1)

/-- `NOP` (R223): only pc advances. -/
def execNop (s : State) : Result :=
  .next (s.finish 1)

/-- `HLT` (R224): "CPU halted"; pc has already advanced. -/
def execHlt (s : State) : Result :=
  .next { s.finish 1 with halted := true }

/-- `DI` (R225): "IFF <- 0". -/
def execDi (s : State) : Result :=
  .next { s.finish 1 with iff := false, intInhibit := true }

/-- `EI` (R226): "IFF <- 1". -/
def execEi (s : State) : Result :=
  .next { s.finish 1 with iff := true, intInhibit := true }

end Sys2Proof.Machine
end

