-- ==== Sys2Proof/Machine/InputOutput.lean ====
section
/-! DEFINITION. IN and OUT (48_io.md). The datum travels through A; no flag changes (R290). -/

namespace Sys2Proof.Machine

/-- `IN n` (R291): "A <- (n)". -/
def execInPort (n : Byte) (s : State) : Result :=
  .next (((s.setReg .a (s.ioAnswer n)).ioRead n).finish 2)

/-- `OUT n` (R292): "(n) <- A". -/
def execOutPort (n : Byte) (s : State) : Result :=
  .next ((s.ioWrite n s.a).finish 2)

end Sys2Proof.Machine
end

