-- ==== Sys2Proof/Machine/Jump.lean ====
section
/-! DEFINITION. The ten jumps (45_jump.md). Targets are absolute; nothing but pc changes (R230). -/

namespace Sys2Proof.Machine

/-- `JMP nn` (R231): "PC <- nn". -/
def execJmp (nn : Word) (s : State) : Result :=
  .next (s.goto nn)

/-- `JNZ nn` (R232): "if NZ is true, PC <- nn". -/
def execJnz (nn : Word) (s : State) : Result :=
  .next (s.jumpIf .nz nn)

/-- `JZ nn` (R233): "if Z is true, PC <- nn". -/
def execJz (nn : Word) (s : State) : Result :=
  .next (s.jumpIf .z nn)

/-- `JNC nn` (R234): "if NC is true, PC <- nn". -/
def execJnc (nn : Word) (s : State) : Result :=
  .next (s.jumpIf .nc nn)

/-- `JC nn` (R235): "if C is true, PC <- nn". -/
def execJc (nn : Word) (s : State) : Result :=
  .next (s.jumpIf .c nn)

/-- `JPO nn` (R236): "if PO is true, PC <- nn". -/
def execJpo (nn : Word) (s : State) : Result :=
  .next (s.jumpIf .po nn)

/-- `JPE nn` (R237): "if PE is true, PC <- nn". -/
def execJpe (nn : Word) (s : State) : Result :=
  .next (s.jumpIf .pe nn)

/-- `JP nn` (R238): "if P is true, PC <- nn". -/
def execJp (nn : Word) (s : State) : Result :=
  .next (s.jumpIf .p nn)

/-- `JM nn` (R239): "if M is true, PC <- nn". -/
def execJm (nn : Word) (s : State) : Result :=
  .next (s.jumpIf .m nn)

/-- `PCHL` (R240): "PC <- HL". -/
def execPchl (s : State) : Result :=
  .next (s.goto s.hl)

end Sys2Proof.Machine
end

