-- ==== Sys2Proof/Machine/Move16.lean ====
section
/-! DEFINITION. The seventeen 16-bit moves and stack instructions (41_move16.md). POP PSW alone loads the
flags (R120, 90_conflicts.md C5). -/

namespace Sys2Proof.Machine

/-- `LXI B, nn` (R121): "BC <- nn". -/
def execLxiB (nn : Word) (s : State) : Result :=
  .next ((s.setBC nn).finish 3)

/-- `LXI D, nn` (R122): "DE <- nn". -/
def execLxiD (nn : Word) (s : State) : Result :=
  .next ((s.setDE nn).finish 3)

/-- `LXI H, nn` (R123): "HL <- nn". -/
def execLxiH (nn : Word) (s : State) : Result :=
  .next ((s.setHL nn).finish 3)

/-- `LXI SP, nn` (R124): "SP <- nn". -/
def execLxiSP (nn : Word) (s : State) : Result :=
  .next ((s.setSP nn).finish 3)

/-- `LHLD nn` (R125): "L <- (nn); H <- (nn+1)". -/
def execLhld (nn : Word) (s : State) : Result :=
  .next ((s.setHL (join (s.memRead (nn + 1)) (s.memRead nn))).finish 3)

/-- `SHLD nn` (R126): "(nn) <- L; (nn+1) <- H". -/
def execShld (nn : Word) (s : State) : Result :=
  .next (((s.memWrite nn s.l).memWrite (nn + 1) s.h).finish 3)

/-- `SPHL` (R127): "SP <- HL". -/
def execSphl (s : State) : Result :=
  .next ((s.setSP s.hl).finish 1)

/-- `XCHG` (R128): "DE <-> HL". -/
def execXchg (s : State) : Result :=
  .next (((s.setDE s.hl).setHL s.de).finish 1)

/-- `XTHL` (R129): "H <-> (SP+1); L <-> (SP)". -/
def execXthl (s : State) : Result :=
  let s1 := (s.memWrite (s.sp + 1) s.h).setReg .h (s.memRead (s.sp + 1))
  let s2 := (s1.memWrite s1.sp s1.l).setReg .l (s1.memRead s1.sp)
  .next (s2.finish 1)

/-- `PUSH B` (R138): "SP <- SP - 1; (SP) <- B; SP <- SP - 1; (SP) <- C". -/
def execPushB (s : State) : Result :=
  .next ((s.push16 s.bc).finish 1)

/-- `PUSH D` (R139): "SP <- SP - 1; (SP) <- D; SP <- SP - 1; (SP) <- E". -/
def execPushD (s : State) : Result :=
  .next ((s.push16 s.de).finish 1)

/-- `PUSH H` (R140): "SP <- SP - 1; (SP) <- H; SP <- SP - 1; (SP) <- L". -/
def execPushH (s : State) : Result :=
  .next ((s.push16 s.hl).finish 1)

/-- `PUSH PSW` (R141): "SP <- SP - 1; (SP) <- A; SP <- SP - 1; (SP) <- Flags". -/
def execPushPSW (s : State) : Result :=
  .next ((s.push16 (join s.a (s.flags.toByte (Config.pswFill s.drawIndex)))).finish 1)

/-- `POP B` (R142): "C <- (SP); SP <- SP + 1; B <- (SP); SP <- SP + 1". -/
def execPopB (s : State) : Result :=
  .next ((s.drop16.setBC s.top16).finish 1)

/-- `POP D` (R143): "E <- (SP); SP <- SP + 1; D <- (SP); SP <- SP + 1". -/
def execPopD (s : State) : Result :=
  .next ((s.drop16.setDE s.top16).finish 1)

/-- `POP H` (R144): "L <- (SP); SP <- SP + 1; H <- (SP); SP <- SP + 1". -/
def execPopH (s : State) : Result :=
  .next ((s.drop16.setHL s.top16).finish 1)

/-- `POP PSW` (R145): "Flags <- (SP); SP <- SP + 1; A <- (SP); SP <- SP + 1". -/
def execPopPSW (s : State) : Result :=
  .next ((s.drop16.setAcc (hi s.top16) (Flags.ofByte (lo s.top16))).finish 1)

end Sys2Proof.Machine
end

