-- ==== Sys2Proof/Machine/Move8.lean ====
section
/-! DEFINITION. The eleven 8-bit moves (40_move8.md). No flag changes (R100). -/

namespace Sys2Proof.Machine

/-- `MOV r, r'` (R101): "r <- r'". -/
def execMovRR (rd : Reg8) (rs : Reg8) (s : State) : Result :=
  .next ((s.setReg rd (s.reg rs)).finish 1)

/-- `MVI r, n` (R102): "r <- n". -/
def execMviR (rd : Reg8) (n : Byte) (s : State) : Result :=
  .next ((s.setReg rd n).finish 2)

/-- `MOV r, M` (R103): "r <- (HL)". -/
def execMovRM (rd : Reg8) (s : State) : Result :=
  .next ((s.setReg rd (s.memRead s.hl)).finish 1)

/-- `MOV M, r` (R104): "(HL) <- r". -/
def execMovMR (rs : Reg8) (s : State) : Result :=
  .next ((s.memWrite s.hl (s.reg rs)).finish 1)

/-- `MVI M, n` (R105): "(HL) <- n". -/
def execMviM (n : Byte) (s : State) : Result :=
  .next ((s.memWrite s.hl n).finish 2)

/-- `LDAX B` (R106): "A <- (BC)". -/
def execLdaxB (s : State) : Result :=
  .next ((s.setReg .a (s.memRead s.bc)).finish 1)

/-- `LDAX D` (R107): "A <- (DE)". -/
def execLdaxD (s : State) : Result :=
  .next ((s.setReg .a (s.memRead s.de)).finish 1)

/-- `LDA nn` (R108): "A <- (nn)". -/
def execLda (nn : Word) (s : State) : Result :=
  .next ((s.setReg .a (s.memRead nn)).finish 3)

/-- `STAX B` (R109): "(BC) <- A". -/
def execStaxB (s : State) : Result :=
  .next ((s.memWrite s.bc s.a).finish 1)

/-- `STAX D` (R110): "(DE) <- A". -/
def execStaxD (s : State) : Result :=
  .next ((s.memWrite s.de s.a).finish 1)

/-- `STA nn` (R111): "(nn) <- A". -/
def execSta (nn : Word) (s : State) : Result :=
  .next ((s.memWrite nn s.a).finish 3)

end Sys2Proof.Machine
end

