-- ==== Sys2Proof/Machine/Rotate.lean ====
section
/-! DEFINITION. The four rotates of the accumulator (47_rotate.md). Only C of the flags is written (R280). -/

namespace Sys2Proof.Machine

/-- A moved left by one bit with `bit` entering at bit 0: `{A[6:0], bit}` (R281, R282). -/
def rotateLeft (v : Byte) (bit : Bool) : Byte := v.extractLsb' 0 7 ++ BitVec.ofBool bit

/-- A moved right by one bit with `bit` entering at bit 7: `{bit, A[7:1]}` (R283, R284). -/
def rotateRight (v : Byte) (bit : Bool) : Byte := BitVec.ofBool bit ++ v.extractLsb' 1 7

/-- `RLC` (R281): rotate A left, bit 7 into bit 0 and C. -/
def execRlc (s : State) : Result :=
  .next (((s.setReg .a (rotateLeft s.a (s.a.getLsbD 7))).setCarry (s.a.getLsbD 7)).finish 1)

/-- `RAL` (R282): rotate A left through C. -/
def execRal (s : State) : Result :=
  .next (((s.setReg .a (rotateLeft s.a s.flags.c)).setCarry (s.a.getLsbD 7)).finish 1)

/-- `RRC` (R283): rotate A right, bit 0 into bit 7 and C. -/
def execRrc (s : State) : Result :=
  .next (((s.setReg .a (rotateRight s.a (s.a.getLsbD 0))).setCarry (s.a.getLsbD 0)).finish 1)

/-- `RAR` (R284): rotate A right through C. -/
def execRar (s : State) : Result :=
  .next (((s.setReg .a (rotateRight s.a s.flags.c)).setCarry (s.a.getLsbD 0)).finish 1)

end Sys2Proof.Machine
end

