-- ==== Sys2Proof/Machine/Dispatch.lean ====
section
/-! DEFINITION. The meaning of an instruction: one arm for each constructor, in the order of
spec/opcode_table.json. -/

namespace Sys2Proof.Machine

def exec (i : Instr) (s : State) : Host.Outcome State Fault Refusal :=
  match i with
  -- 8-bit moves (40_move8.md)
  | .movRR rd rs => Sys2Proof.Machine.execMovRR rd rs s
  | .mviR rd n => Sys2Proof.Machine.execMviR rd n s
  | .movRM rd => Sys2Proof.Machine.execMovRM rd s
  | .movMR rs => Sys2Proof.Machine.execMovMR rs s
  | .mviM n => Sys2Proof.Machine.execMviM n s
  | .ldaxB => Sys2Proof.Machine.execLdaxB s
  | .ldaxD => Sys2Proof.Machine.execLdaxD s
  | .lda nn => Sys2Proof.Machine.execLda nn s
  | .staxB => Sys2Proof.Machine.execStaxB s
  | .staxD => Sys2Proof.Machine.execStaxD s
  | .sta nn => Sys2Proof.Machine.execSta nn s
  -- 16-bit moves and the stack (41_move16.md)
  | .lxiB nn => Sys2Proof.Machine.execLxiB nn s
  | .lxiD nn => Sys2Proof.Machine.execLxiD nn s
  | .lxiH nn => Sys2Proof.Machine.execLxiH nn s
  | .lxiSP nn => Sys2Proof.Machine.execLxiSP nn s
  | .lhld nn => Sys2Proof.Machine.execLhld nn s
  | .shld nn => Sys2Proof.Machine.execShld nn s
  | .sphl => Sys2Proof.Machine.execSphl s
  | .xchg => Sys2Proof.Machine.execXchg s
  | .xthl => Sys2Proof.Machine.execXthl s
  | .pushB => Sys2Proof.Machine.execPushB s
  | .pushD => Sys2Proof.Machine.execPushD s
  | .pushH => Sys2Proof.Machine.execPushH s
  | .pushPSW => Sys2Proof.Machine.execPushPSW s
  | .popB => Sys2Proof.Machine.execPopB s
  | .popD => Sys2Proof.Machine.execPopD s
  | .popH => Sys2Proof.Machine.execPopH s
  | .popPSW => Sys2Proof.Machine.execPopPSW s
  -- 8-bit arithmetic and logic (42_alu8.md)
  | .addR rs => Sys2Proof.Machine.execAddR rs s
  | .adi n => Sys2Proof.Machine.execAdi n s
  | .addM => Sys2Proof.Machine.execAddM s
  | .adcR rs => Sys2Proof.Machine.execAdcR rs s
  | .aci n => Sys2Proof.Machine.execAci n s
  | .adcM => Sys2Proof.Machine.execAdcM s
  | .subR rs => Sys2Proof.Machine.execSubR rs s
  | .sui n => Sys2Proof.Machine.execSui n s
  | .subM => Sys2Proof.Machine.execSubM s
  | .sbbR rs => Sys2Proof.Machine.execSbbR rs s
  | .sbi n => Sys2Proof.Machine.execSbi n s
  | .sbbM => Sys2Proof.Machine.execSbbM s
  | .cmpR rs => Sys2Proof.Machine.execCmpR rs s
  | .cpi n => Sys2Proof.Machine.execCpi n s
  | .cmpM => Sys2Proof.Machine.execCmpM s
  | .anaR rs => Sys2Proof.Machine.execAnaR rs s
  | .ani n => Sys2Proof.Machine.execAni n s
  | .anaM => Sys2Proof.Machine.execAnaM s
  | .oraR rs => Sys2Proof.Machine.execOraR rs s
  | .ori n => Sys2Proof.Machine.execOri n s
  | .oraM => Sys2Proof.Machine.execOraM s
  | .xraR rs => Sys2Proof.Machine.execXraR rs s
  | .xri n => Sys2Proof.Machine.execXri n s
  | .xraM => Sys2Proof.Machine.execXraM s
  | .inrR rd => Sys2Proof.Machine.execInrR rd s
  | .inrM => Sys2Proof.Machine.execInrM s
  | .dcrR rd => Sys2Proof.Machine.execDcrR rd s
  | .dcrM => Sys2Proof.Machine.execDcrM s
  | .daa => Sys2Proof.Machine.execDaa s
  | .cma => Sys2Proof.Machine.execCma s
  -- 16-bit arithmetic (43_arith16.md)
  | .dadB => Sys2Proof.Machine.execDadB s
  | .dadD => Sys2Proof.Machine.execDadD s
  | .dadH => Sys2Proof.Machine.execDadH s
  | .dadSP => Sys2Proof.Machine.execDadSP s
  | .inxB => Sys2Proof.Machine.execInxB s
  | .inxD => Sys2Proof.Machine.execInxD s
  | .inxH => Sys2Proof.Machine.execInxH s
  | .inxSP => Sys2Proof.Machine.execInxSP s
  | .dcxB => Sys2Proof.Machine.execDcxB s
  | .dcxD => Sys2Proof.Machine.execDcxD s
  | .dcxH => Sys2Proof.Machine.execDcxH s
  | .dcxSP => Sys2Proof.Machine.execDcxSP s
  -- CPU control (44_cpu_control.md)
  | .cmc => Sys2Proof.Machine.execCmc s
  | .stc => Sys2Proof.Machine.execStc s
  | .nop => Sys2Proof.Machine.execNop s
  | .hlt => Sys2Proof.Machine.execHlt s
  | .di => Sys2Proof.Machine.execDi s
  | .ei => Sys2Proof.Machine.execEi s
  -- Jumps (45_jump.md)
  | .jmp nn => Sys2Proof.Machine.execJmp nn s
  | .jnz nn => Sys2Proof.Machine.execJnz nn s
  | .jz nn => Sys2Proof.Machine.execJz nn s
  | .jnc nn => Sys2Proof.Machine.execJnc nn s
  | .jc nn => Sys2Proof.Machine.execJc nn s
  | .jpo nn => Sys2Proof.Machine.execJpo nn s
  | .jpe nn => Sys2Proof.Machine.execJpe nn s
  | .jp nn => Sys2Proof.Machine.execJp nn s
  | .jm nn => Sys2Proof.Machine.execJm nn s
  | .pchl => Sys2Proof.Machine.execPchl s
  -- Calls, returns, restarts (46_call_return.md)
  | .call nn => Sys2Proof.Machine.execCall nn s
  | .cnz nn => Sys2Proof.Machine.execCnz nn s
  | .cz nn => Sys2Proof.Machine.execCz nn s
  | .cnc nn => Sys2Proof.Machine.execCnc nn s
  | .cc nn => Sys2Proof.Machine.execCc nn s
  | .cpo nn => Sys2Proof.Machine.execCpo nn s
  | .cpe nn => Sys2Proof.Machine.execCpe nn s
  | .cp nn => Sys2Proof.Machine.execCp nn s
  | .cm nn => Sys2Proof.Machine.execCm nn s
  | .ret => Sys2Proof.Machine.execRet s
  | .rnz => Sys2Proof.Machine.execRnz s
  | .rz => Sys2Proof.Machine.execRz s
  | .rnc => Sys2Proof.Machine.execRnc s
  | .rc => Sys2Proof.Machine.execRc s
  | .rpo => Sys2Proof.Machine.execRpo s
  | .rpe => Sys2Proof.Machine.execRpe s
  | .rp => Sys2Proof.Machine.execRp s
  | .rm => Sys2Proof.Machine.execRm s
  | .rst k => Sys2Proof.Machine.execRst k s
  -- Rotates (47_rotate.md)
  | .rlc => Sys2Proof.Machine.execRlc s
  | .ral => Sys2Proof.Machine.execRal s
  | .rrc => Sys2Proof.Machine.execRrc s
  | .rar => Sys2Proof.Machine.execRar s
  -- Input and output (48_io.md)
  | .inPort n => Sys2Proof.Machine.execInPort n s
  | .outPort n => Sys2Proof.Machine.execOutPort n s

end Sys2Proof.Machine
end

