-- ==== Sys2Proof/Machine/Step.lean ====
section
/-! DEFINITION. One step of the whole machine (60_exceptions.md R323), and how a test puts an
instruction where the next step fetches. -/

namespace Sys2Proof.Machine

/-- One step: the event of the boundary ahead is presented and taken; then a reset, an interrupt
acceptance, a stutter of the halted processor, or one instruction (R308, R323). A byte at pc that is
no opcode faults with no state change (R300). -/
def step (s : State) : Host.Outcome State Fault Refusal :=
  match s.boundary with
  | .reset => .next s.takeEvent.applyReset
  | .accept i => .next (s.takeEvent.acceptInterrupt i)
  | .stutter => .next s.takeEvent
  | .execute =>
    match s.fetch with
    | some i => exec i s.takeEvent
    | none => .fault (.illegalOpcode (s.fetchByte s.pc))

/-- The state with the instruction of bits `w` (bits from `nbits` on are 0) in memory at pc, and
nothing between it and the next step: the three bytes at pc, the first lowest; not halted; no reset
or request presented. -/
def State.withFetchWord (s : State) (nbits w : Nat) : State :=
  let v := w % 2 ^ nbits
  (((s.clearBoundary.loadByte s.pc (BitVec.ofNat 8 v)).loadByte (s.pc + 1)
    (BitVec.ofNat 8 (v / 2 ^ 8))).loadByte (s.pc + 2) (BitVec.ofNat 8 (v / 2 ^ 16)))

end Sys2Proof.Machine
end

