-- ==== Sys2Proof/Machine/Timing.lean ====
section
/-! DEFINITION. The timing columns of 70_reset_and_hazards.md R336. They are data: no rule of
behaviour depends on them and the state has no clock (R341; log 13). -/

namespace Sys2Proof.Machine

/-- The column "M Cycles". `taken` says whether the condition of a conditional call or return is
true; the other instructions have one value. -/
def machineCycles (i : Instr) (taken : Bool) : Nat :=
  match i with
  | .movRR _ _ => 1
  | .mviR _ _ => 2
  | .movRM _ => 2
  | .movMR _ => 2
  | .mviM _ => 3
  | .ldaxB => 2
  | .ldaxD => 2
  | .lda _ => 4
  | .staxB => 2
  | .staxD => 2
  | .sta _ => 4
  | .lxiB _ => 3
  | .lxiD _ => 3
  | .lxiH _ => 3
  | .lxiSP _ => 3
  | .lhld _ => 5
  | .shld _ => 5
  | .sphl => 1
  | .xchg => 1
  | .xthl => 5
  | .pushB => 3
  | .pushD => 3
  | .pushH => 3
  | .pushPSW => 3
  | .popB => 3
  | .popD => 3
  | .popH => 3
  | .popPSW => 3
  | .addR _ => 1
  | .adi _ => 2
  | .addM => 2
  | .adcR _ => 1
  | .aci _ => 2
  | .adcM => 2
  | .subR _ => 1
  | .sui _ => 2
  | .subM => 2
  | .sbbR _ => 1
  | .sbi _ => 2
  | .sbbM => 2
  | .cmpR _ => 1
  | .cpi _ => 2
  | .cmpM => 2
  | .anaR _ => 1
  | .ani _ => 2
  | .anaM => 2
  | .oraR _ => 1
  | .ori _ => 2
  | .oraM => 2
  | .xraR _ => 1
  | .xri _ => 2
  | .xraM => 2
  | .inrR _ => 1
  | .inrM => 3
  | .dcrR _ => 1
  | .dcrM => 3
  | .daa => 1
  | .cma => 1
  | .dadB => 3
  | .dadD => 3
  | .dadH => 3
  | .dadSP => 3
  | .inxB => 1
  | .inxD => 1
  | .inxH => 1
  | .inxSP => 1
  | .dcxB => 1
  | .dcxD => 1
  | .dcxH => 1
  | .dcxSP => 1
  | .cmc => 1
  | .stc => 1
  | .nop => 1
  | .hlt => 1
  | .di => 1
  | .ei => 1
  | .jmp _ => 3
  | .jnz _ => 3
  | .jz _ => 3
  | .jnc _ => 3
  | .jc _ => 3
  | .jpo _ => 3
  | .jpe _ => 3
  | .jp _ => 3
  | .jm _ => 3
  | .pchl => 1
  | .call _ => 5
  | .cnz _ => if taken then 5 else 3
  | .cz _ => if taken then 5 else 3
  | .cnc _ => if taken then 5 else 3
  | .cc _ => if taken then 5 else 3
  | .cpo _ => if taken then 5 else 3
  | .cpe _ => if taken then 5 else 3
  | .cp _ => if taken then 5 else 3
  | .cm _ => if taken then 5 else 3
  | .ret => 3
  | .rnz => if taken then 3 else 1
  | .rz => if taken then 3 else 1
  | .rnc => if taken then 3 else 1
  | .rc => if taken then 3 else 1
  | .rpo => if taken then 3 else 1
  | .rpe => if taken then 3 else 1
  | .rp => if taken then 3 else 1
  | .rm => if taken then 3 else 1
  | .rst _ => 3
  | .rlc => 1
  | .ral => 1
  | .rrc => 1
  | .rar => 1
  | .inPort _ => 3
  | .outPort _ => 3

/-- The column "Clock Cycles", with `taken` as for `machineCycles`. -/
def clockCycles (i : Instr) (taken : Bool) : Nat :=
  match i with
  | .movRR _ _ => 4
  | .mviR _ _ => 7
  | .movRM _ => 7
  | .movMR _ => 7
  | .mviM _ => 10
  | .ldaxB => 7
  | .ldaxD => 7
  | .lda _ => 13
  | .staxB => 7
  | .staxD => 7
  | .sta _ => 13
  | .lxiB _ => 10
  | .lxiD _ => 10
  | .lxiH _ => 10
  | .lxiSP _ => 10
  | .lhld _ => 16
  | .shld _ => 16
  | .sphl => 6
  | .xchg => 4
  | .xthl => 19
  | .pushB => 11
  | .pushD => 11
  | .pushH => 11
  | .pushPSW => 11
  | .popB => 10
  | .popD => 10
  | .popH => 10
  | .popPSW => 10
  | .addR _ => 4
  | .adi _ => 7
  | .addM => 7
  | .adcR _ => 4
  | .aci _ => 7
  | .adcM => 7
  | .subR _ => 4
  | .sui _ => 7
  | .subM => 7
  | .sbbR _ => 4
  | .sbi _ => 7
  | .sbbM => 7
  | .cmpR _ => 4
  | .cpi _ => 7
  | .cmpM => 7
  | .anaR _ => 4
  | .ani _ => 7
  | .anaM => 7
  | .oraR _ => 4
  | .ori _ => 7
  | .oraM => 7
  | .xraR _ => 4
  | .xri _ => 7
  | .xraM => 7
  | .inrR _ => 4
  | .inrM => 11
  | .dcrR _ => 4
  | .dcrM => 11
  | .daa => 4
  | .cma => 4
  | .dadB => 11
  | .dadD => 11
  | .dadH => 11
  | .dadSP => 11
  | .inxB => 6
  | .inxD => 6
  | .inxH => 6
  | .inxSP => 6
  | .dcxB => 6
  | .dcxD => 6
  | .dcxH => 6
  | .dcxSP => 6
  | .cmc => 4
  | .stc => 4
  | .nop => 4
  | .hlt => 4
  | .di => 4
  | .ei => 4
  | .jmp _ => 10
  | .jnz _ => 10
  | .jz _ => 10
  | .jnc _ => 10
  | .jc _ => 10
  | .jpo _ => 10
  | .jpe _ => 10
  | .jp _ => 10
  | .jm _ => 10
  | .pchl => 4
  | .call _ => 17
  | .cnz _ => if taken then 17 else 10
  | .cz _ => if taken then 17 else 10
  | .cnc _ => if taken then 17 else 10
  | .cc _ => if taken then 17 else 10
  | .cpo _ => if taken then 17 else 10
  | .cpe _ => if taken then 17 else 10
  | .cp _ => if taken then 17 else 10
  | .cm _ => if taken then 17 else 10
  | .ret => 10
  | .rnz => if taken then 11 else 5
  | .rz => if taken then 11 else 5
  | .rnc => if taken then 11 else 5
  | .rc => if taken then 11 else 5
  | .rpo => if taken then 11 else 5
  | .rpe => if taken then 11 else 5
  | .rp => if taken then 11 else 5
  | .rm => if taken then 11 else 5
  | .rst _ => 11
  | .rlc => 4
  | .ral => 4
  | .rrc => 4
  | .rar => 4
  | .inPort _ => 11
  | .outPort _ => 11

/-- The condition of a conditional jump, call or return (00_scope.md R14). -/
def condOf (i : Instr) : Option Cond :=
  match i with
  | .movRR _ _ => none
  | .mviR _ _ => none
  | .movRM _ => none
  | .movMR _ => none
  | .mviM _ => none
  | .ldaxB => none
  | .ldaxD => none
  | .lda _ => none
  | .staxB => none
  | .staxD => none
  | .sta _ => none
  | .lxiB _ => none
  | .lxiD _ => none
  | .lxiH _ => none
  | .lxiSP _ => none
  | .lhld _ => none
  | .shld _ => none
  | .sphl => none
  | .xchg => none
  | .xthl => none
  | .pushB => none
  | .pushD => none
  | .pushH => none
  | .pushPSW => none
  | .popB => none
  | .popD => none
  | .popH => none
  | .popPSW => none
  | .addR _ => none
  | .adi _ => none
  | .addM => none
  | .adcR _ => none
  | .aci _ => none
  | .adcM => none
  | .subR _ => none
  | .sui _ => none
  | .subM => none
  | .sbbR _ => none
  | .sbi _ => none
  | .sbbM => none
  | .cmpR _ => none
  | .cpi _ => none
  | .cmpM => none
  | .anaR _ => none
  | .ani _ => none
  | .anaM => none
  | .oraR _ => none
  | .ori _ => none
  | .oraM => none
  | .xraR _ => none
  | .xri _ => none
  | .xraM => none
  | .inrR _ => none
  | .inrM => none
  | .dcrR _ => none
  | .dcrM => none
  | .daa => none
  | .cma => none
  | .dadB => none
  | .dadD => none
  | .dadH => none
  | .dadSP => none
  | .inxB => none
  | .inxD => none
  | .inxH => none
  | .inxSP => none
  | .dcxB => none
  | .dcxD => none
  | .dcxH => none
  | .dcxSP => none
  | .cmc => none
  | .stc => none
  | .nop => none
  | .hlt => none
  | .di => none
  | .ei => none
  | .jmp _ => none
  | .jnz _ => some .nz
  | .jz _ => some .z
  | .jnc _ => some .nc
  | .jc _ => some .c
  | .jpo _ => some .po
  | .jpe _ => some .pe
  | .jp _ => some .p
  | .jm _ => some .m
  | .pchl => none
  | .call _ => none
  | .cnz _ => some .nz
  | .cz _ => some .z
  | .cnc _ => some .nc
  | .cc _ => some .c
  | .cpo _ => some .po
  | .cpe _ => some .pe
  | .cp _ => some .p
  | .cm _ => some .m
  | .ret => none
  | .rnz => some .nz
  | .rz => some .z
  | .rnc => some .nc
  | .rc => some .c
  | .rpo => some .po
  | .rpe => some .pe
  | .rp => some .p
  | .rm => some .m
  | .rst _ => none
  | .rlc => none
  | .ral => none
  | .rrc => none
  | .rar => none
  | .inPort _ => none
  | .outPort _ => none

/-- The clock cycles of an instruction executed in a state: the value for the outcome its condition
has there. -/
def clockCyclesIn (i : Instr) (s : State) : Nat :=
  clockCycles i (((condOf i).map (Cond.holds · s.flags)).getD true)

end Sys2Proof.Machine
end

