-- ==== Sys2Proof/Safety.lean ====
section
/-! DEFINITION. The outcomes of a run (70_reset_and_hazards.md R337) and what counts as a safe step. -/

namespace Sys2Proof.Machine

open Sys2Proof.Config (EnvEvent)

/-- No interrupt request is among the events still to come: the closed world `none` of R305. -/
def State.noRequests (s : State) : Bool :=
  s.events.all fun ev => match ev with
    | .request _ => false
    | _ => true

/-- No reset is among the events still to come: the launch premise R323 allows after the first step. -/
def State.noResets (s : State) : Bool :=
  s.events.all fun ev => match ev with
    | .reset => false
    | _ => true

/-- The four outcomes of R337. -/
inductive RunOutcome where
  | finished | waiting | faulted | running
deriving DecidableEq, Repr

/-- `finished` (R337): halted, and no interrupt can be accepted from here on, because IFF is 0 or the
environment is the closed world. -/
def State.finished (s : State) : Bool := s.halted && (!s.iff || s.noRequests)

/-- The next step does not fault: it does not fetch one of the twelve opcode values without a row
(60_exceptions.md R300). -/
def State.safe (s : State) : Bool :=
  match s.boundary with
  | .execute => s.fetch.isSome
  | _ => true

/-- The outcome of a run that has reached a state (R337). -/
def State.outcome (s : State) : RunOutcome :=
  if s.finished then .finished
  else if s.halted then .waiting
  else if s.safe then .running
  else .faulted

/-! ## The terms the claims use -/

/-- What the document's flag column says of one flag (00_scope.md R16, 10_state.md R27). -/
inductive FlagEffect where
  /-- The flag is not affected. -/
  | kept
  /-- The flag is reset. -/
  | cleared
  /-- The flag is set. -/
  | set
  /-- The flag is set according to the result, or loaded. -/
  | written
deriving DecidableEq, Repr

/-- One row of the table of R27: the effect on S, Z, H, P, C. -/
structure FlagRow where
  /-- Effect on F.S. -/
  s : FlagEffect
  /-- Effect on F.Z. -/
  z : FlagEffect
  /-- Effect on F.H. -/
  h : FlagEffect
  /-- Effect on F.P. -/
  p : FlagEffect
  /-- Effect on F.C. -/
  c : FlagEffect
deriving DecidableEq, Repr

/-- The add, subtract and compare rows and DAA: all five computed. -/
def FlagRow.all : FlagRow := ⟨.written, .written, .written, .written, .written⟩

/-- The logic rows: H not affected, C cleared. -/
def FlagRow.logic : FlagRow := ⟨.written, .written, .kept, .written, .cleared⟩

/-- INR and DCR: C not affected. -/
def FlagRow.step : FlagRow := ⟨.written, .written, .written, .written, .kept⟩

/-- DAD, CMC and the rotates: C computed. -/
def FlagRow.carryOnly : FlagRow := ⟨.kept, .kept, .kept, .kept, .written⟩

/-- STC: C set. -/
def FlagRow.carrySet : FlagRow := ⟨.kept, .kept, .kept, .kept, .set⟩

/-- POP PSW: all five loaded. -/
def FlagRow.loaded : FlagRow := ⟨.written, .written, .written, .written, .written⟩

/-- Every instruction the table does not list. -/
def FlagRow.none : FlagRow := ⟨.kept, .kept, .kept, .kept, .kept⟩

/-- The table of R27. -/
def flagRow : Instr → FlagRow
  | .movRR _ _ => .none
  | .mviR _ _ => .none
  | .movRM _ => .none
  | .movMR _ => .none
  | .mviM _ => .none
  | .ldaxB => .none
  | .ldaxD => .none
  | .lda _ => .none
  | .staxB => .none
  | .staxD => .none
  | .sta _ => .none
  | .lxiB _ => .none
  | .lxiD _ => .none
  | .lxiH _ => .none
  | .lxiSP _ => .none
  | .lhld _ => .none
  | .shld _ => .none
  | .sphl => .none
  | .xchg => .none
  | .xthl => .none
  | .pushB => .none
  | .pushD => .none
  | .pushH => .none
  | .pushPSW => .none
  | .popB => .none
  | .popD => .none
  | .popH => .none
  | .popPSW => .loaded
  | .addR _ => .all
  | .adi _ => .all
  | .addM => .all
  | .adcR _ => .all
  | .aci _ => .all
  | .adcM => .all
  | .subR _ => .all
  | .sui _ => .all
  | .subM => .all
  | .sbbR _ => .all
  | .sbi _ => .all
  | .sbbM => .all
  | .cmpR _ => .all
  | .cpi _ => .all
  | .cmpM => .all
  | .anaR _ => .logic
  | .ani _ => .logic
  | .anaM => .logic
  | .oraR _ => .logic
  | .ori _ => .logic
  | .oraM => .logic
  | .xraR _ => .logic
  | .xri _ => .logic
  | .xraM => .logic
  | .inrR _ => .step
  | .inrM => .step
  | .dcrR _ => .step
  | .dcrM => .step
  | .daa => .all
  | .cma => .none
  | .dadB => .carryOnly
  | .dadD => .carryOnly
  | .dadH => .carryOnly
  | .dadSP => .carryOnly
  | .inxB => .none
  | .inxD => .none
  | .inxH => .none
  | .inxSP => .none
  | .dcxB => .none
  | .dcxD => .none
  | .dcxH => .none
  | .dcxSP => .none
  | .cmc => .carryOnly
  | .stc => .carrySet
  | .nop => .none
  | .hlt => .none
  | .di => .none
  | .ei => .none
  | .jmp _ => .none
  | .jnz _ => .none
  | .jz _ => .none
  | .jnc _ => .none
  | .jc _ => .none
  | .jpo _ => .none
  | .jpe _ => .none
  | .jp _ => .none
  | .jm _ => .none
  | .pchl => .none
  | .call _ => .none
  | .cnz _ => .none
  | .cz _ => .none
  | .cnc _ => .none
  | .cc _ => .none
  | .cpo _ => .none
  | .cpe _ => .none
  | .cp _ => .none
  | .cm _ => .none
  | .ret => .none
  | .rnz => .none
  | .rz => .none
  | .rnc => .none
  | .rc => .none
  | .rpo => .none
  | .rpe => .none
  | .rp => .none
  | .rm => .none
  | .rst _ => .none
  | .rlc => .carryOnly
  | .ral => .carryOnly
  | .rrc => .carryOnly
  | .rar => .carryOnly
  | .inPort _ => .none
  | .outPort _ => .none

/-- A flag went from `old` to `new` as its table entry says. -/
def FlagEffect.allows (k : FlagEffect) (old new : Bool) : Prop :=
  match k with
  | .kept => new = old
  | .cleared => new = false
  | .set => new = true
  | .written => True

/-- The instructions that may assign pc (10_state.md R25). -/
def assignsPc : Instr → Bool
  | .movRR _ _ => false
  | .mviR _ _ => false
  | .movRM _ => false
  | .movMR _ => false
  | .mviM _ => false
  | .ldaxB => false
  | .ldaxD => false
  | .lda _ => false
  | .staxB => false
  | .staxD => false
  | .sta _ => false
  | .lxiB _ => false
  | .lxiD _ => false
  | .lxiH _ => false
  | .lxiSP _ => false
  | .lhld _ => false
  | .shld _ => false
  | .sphl => false
  | .xchg => false
  | .xthl => false
  | .pushB => false
  | .pushD => false
  | .pushH => false
  | .pushPSW => false
  | .popB => false
  | .popD => false
  | .popH => false
  | .popPSW => false
  | .addR _ => false
  | .adi _ => false
  | .addM => false
  | .adcR _ => false
  | .aci _ => false
  | .adcM => false
  | .subR _ => false
  | .sui _ => false
  | .subM => false
  | .sbbR _ => false
  | .sbi _ => false
  | .sbbM => false
  | .cmpR _ => false
  | .cpi _ => false
  | .cmpM => false
  | .anaR _ => false
  | .ani _ => false
  | .anaM => false
  | .oraR _ => false
  | .ori _ => false
  | .oraM => false
  | .xraR _ => false
  | .xri _ => false
  | .xraM => false
  | .inrR _ => false
  | .inrM => false
  | .dcrR _ => false
  | .dcrM => false
  | .daa => false
  | .cma => false
  | .dadB => false
  | .dadD => false
  | .dadH => false
  | .dadSP => false
  | .inxB => false
  | .inxD => false
  | .inxH => false
  | .inxSP => false
  | .dcxB => false
  | .dcxD => false
  | .dcxH => false
  | .dcxSP => false
  | .cmc => false
  | .stc => false
  | .nop => false
  | .hlt => false
  | .di => false
  | .ei => false
  | .jmp _ => true
  | .jnz _ => true
  | .jz _ => true
  | .jnc _ => true
  | .jc _ => true
  | .jpo _ => true
  | .jpe _ => true
  | .jp _ => true
  | .jm _ => true
  | .pchl => true
  | .call _ => true
  | .cnz _ => true
  | .cz _ => true
  | .cnc _ => true
  | .cc _ => true
  | .cpo _ => true
  | .cpe _ => true
  | .cp _ => true
  | .cm _ => true
  | .ret => true
  | .rnz => true
  | .rz => true
  | .rnc => true
  | .rc => true
  | .rpo => true
  | .rpe => true
  | .rp => true
  | .rm => true
  | .rst _ => true
  | .rlc => false
  | .ral => false
  | .rrc => false
  | .rar => false
  | .inPort _ => false
  | .outPort _ => false

/-- The instructions that write SP (10_state.md R23). -/
def writesSP : Instr → Bool
  | .movRR _ _ => false
  | .mviR _ _ => false
  | .movRM _ => false
  | .movMR _ => false
  | .mviM _ => false
  | .ldaxB => false
  | .ldaxD => false
  | .lda _ => false
  | .staxB => false
  | .staxD => false
  | .sta _ => false
  | .lxiB _ => false
  | .lxiD _ => false
  | .lxiH _ => false
  | .lxiSP _ => true
  | .lhld _ => false
  | .shld _ => false
  | .sphl => true
  | .xchg => false
  | .xthl => false
  | .pushB => true
  | .pushD => true
  | .pushH => true
  | .pushPSW => true
  | .popB => true
  | .popD => true
  | .popH => true
  | .popPSW => true
  | .addR _ => false
  | .adi _ => false
  | .addM => false
  | .adcR _ => false
  | .aci _ => false
  | .adcM => false
  | .subR _ => false
  | .sui _ => false
  | .subM => false
  | .sbbR _ => false
  | .sbi _ => false
  | .sbbM => false
  | .cmpR _ => false
  | .cpi _ => false
  | .cmpM => false
  | .anaR _ => false
  | .ani _ => false
  | .anaM => false
  | .oraR _ => false
  | .ori _ => false
  | .oraM => false
  | .xraR _ => false
  | .xri _ => false
  | .xraM => false
  | .inrR _ => false
  | .inrM => false
  | .dcrR _ => false
  | .dcrM => false
  | .daa => false
  | .cma => false
  | .dadB => false
  | .dadD => false
  | .dadH => false
  | .dadSP => false
  | .inxB => false
  | .inxD => false
  | .inxH => false
  | .inxSP => true
  | .dcxB => false
  | .dcxD => false
  | .dcxH => false
  | .dcxSP => true
  | .cmc => false
  | .stc => false
  | .nop => false
  | .hlt => false
  | .di => false
  | .ei => false
  | .jmp _ => false
  | .jnz _ => false
  | .jz _ => false
  | .jnc _ => false
  | .jc _ => false
  | .jpo _ => false
  | .jpe _ => false
  | .jp _ => false
  | .jm _ => false
  | .pchl => false
  | .call _ => true
  | .cnz _ => true
  | .cz _ => true
  | .cnc _ => true
  | .cc _ => true
  | .cpo _ => true
  | .cpe _ => true
  | .cp _ => true
  | .cm _ => true
  | .ret => true
  | .rnz => true
  | .rz => true
  | .rnc => true
  | .rc => true
  | .rpo => true
  | .rpe => true
  | .rp => true
  | .rm => true
  | .rst _ => true
  | .rlc => false
  | .ral => false
  | .rrc => false
  | .rar => false
  | .inPort _ => false
  | .outPort _ => false

/-- The addresses an instruction writes, in order: the `W` entries of the table of 20_memory.md R55. -/
def storedAddresses (i : Instr) (s : State) : List Word :=
  match i with
  | .movRR _ _ => []
  | .mviR _ _ => []
  | .movRM _ => []
  | .movMR _ => [s.hl]
  | .mviM _ => [s.hl]
  | .ldaxB => []
  | .ldaxD => []
  | .lda _ => []
  | .staxB => [s.bc]
  | .staxD => [s.de]
  | .sta nn => [nn]
  | .lxiB _ => []
  | .lxiD _ => []
  | .lxiH _ => []
  | .lxiSP _ => []
  | .lhld _ => []
  | .shld nn => [nn, nn + 1]
  | .sphl => []
  | .xchg => []
  | .xthl => [s.sp + 1, s.sp]
  | .pushB => [s.sp - 1, s.sp - 2]
  | .pushD => [s.sp - 1, s.sp - 2]
  | .pushH => [s.sp - 1, s.sp - 2]
  | .pushPSW => [s.sp - 1, s.sp - 2]
  | .popB => []
  | .popD => []
  | .popH => []
  | .popPSW => []
  | .addR _ => []
  | .adi _ => []
  | .addM => []
  | .adcR _ => []
  | .aci _ => []
  | .adcM => []
  | .subR _ => []
  | .sui _ => []
  | .subM => []
  | .sbbR _ => []
  | .sbi _ => []
  | .sbbM => []
  | .cmpR _ => []
  | .cpi _ => []
  | .cmpM => []
  | .anaR _ => []
  | .ani _ => []
  | .anaM => []
  | .oraR _ => []
  | .ori _ => []
  | .oraM => []
  | .xraR _ => []
  | .xri _ => []
  | .xraM => []
  | .inrR _ => []
  | .inrM => [s.hl]
  | .dcrR _ => []
  | .dcrM => [s.hl]
  | .daa => []
  | .cma => []
  | .dadB => []
  | .dadD => []
  | .dadH => []
  | .dadSP => []
  | .inxB => []
  | .inxD => []
  | .inxH => []
  | .inxSP => []
  | .dcxB => []
  | .dcxD => []
  | .dcxH => []
  | .dcxSP => []
  | .cmc => []
  | .stc => []
  | .nop => []
  | .hlt => []
  | .di => []
  | .ei => []
  | .jmp _ => []
  | .jnz _ => []
  | .jz _ => []
  | .jnc _ => []
  | .jc _ => []
  | .jpo _ => []
  | .jpe _ => []
  | .jp _ => []
  | .jm _ => []
  | .pchl => []
  | .call _ => [s.sp - 1, s.sp - 2]
  | .cnz _ => if Cond.holds .nz s.flags then [s.sp - 1, s.sp - 2] else []
  | .cz _ => if Cond.holds .z s.flags then [s.sp - 1, s.sp - 2] else []
  | .cnc _ => if Cond.holds .nc s.flags then [s.sp - 1, s.sp - 2] else []
  | .cc _ => if Cond.holds .c s.flags then [s.sp - 1, s.sp - 2] else []
  | .cpo _ => if Cond.holds .po s.flags then [s.sp - 1, s.sp - 2] else []
  | .cpe _ => if Cond.holds .pe s.flags then [s.sp - 1, s.sp - 2] else []
  | .cp _ => if Cond.holds .p s.flags then [s.sp - 1, s.sp - 2] else []
  | .cm _ => if Cond.holds .m s.flags then [s.sp - 1, s.sp - 2] else []
  | .ret => []
  | .rnz => []
  | .rz => []
  | .rnc => []
  | .rc => []
  | .rpo => []
  | .rpe => []
  | .rp => []
  | .rm => []
  | .rst _ => [s.sp - 1, s.sp - 2]
  | .rlc => []
  | .ral => []
  | .rrc => []
  | .rar => []
  | .inPort _ => []
  | .outPort _ => []

/-- The instruction with each condition: the conditional jumps (45_jump.md R232 to R239). -/
def condJump (k : Cond) (nn : Word) : Instr :=
  match k with
  | .nz => .jnz nn
  | .z => .jz nn
  | .nc => .jnc nn
  | .c => .jc nn
  | .po => .jpo nn
  | .pe => .jpe nn
  | .p => .jp nn
  | .m => .jm nn

/-- The conditional calls (46_call_return.md R252 to R259). -/
def condCall (k : Cond) (nn : Word) : Instr :=
  match k with
  | .nz => .cnz nn
  | .z => .cz nn
  | .nc => .cnc nn
  | .c => .cc nn
  | .po => .cpo nn
  | .pe => .cpe nn
  | .p => .cp nn
  | .m => .cm nn

/-- The conditional returns (R261 to R268). -/
def condReturn (k : Cond) : Instr :=
  match k with
  | .nz => .rnz
  | .z => .rz
  | .nc => .rnc
  | .c => .rc
  | .po => .rpo
  | .pe => .rpe
  | .p => .rp
  | .m => .rm

/-- The columns "76 543 210" (with any operand byte), "M Cycles" and "Clock Cycles" of an instruction
whose timing does not depend on a condition (70_reset_and_hazards.md R336). -/
def HasColumns (i : Instr) (bytes : List Byte) (m c : Nat) : Prop :=
  encode i = bytes ∧ ∀ taken, machineCycles i taken = m ∧ clockCycles i taken = c

/-- The column "true when" of 00_scope.md R14. -/
def CondTrue (k : Cond) (f : Flags) : Prop :=
  match k with
  | .nz => f.z = false
  | .z => f.z = true
  | .nc => f.c = false
  | .c => f.c = true
  | .po => f.p = false
  | .pe => f.p = true
  | .p => f.s = false
  | .m => f.s = true

/-- No register outside `w` differs, and neither do IFF, halted, the map, the I/O environment, the
history and the events ahead. -/
structure Untouched (s t : State) (w : List Reg8) : Prop where
  /-- The registers not in the list. -/
  regs : ∀ q, q ∉ w → t.reg q = s.reg q
  /-- IFF. -/
  iff : t.iff = s.iff
  /-- halted. -/
  halted : t.halted = s.halted
  /-- MemMap. -/
  memMap : t.memMap = s.memMap
  /-- The answers ahead. -/
  ioAnswers : t.ioAnswers = s.ioAnswers
  /-- The event history. -/
  history : t.history = s.history
  /-- The events ahead. -/
  events : t.events = s.events

/-- The boundary ahead lets an instruction execute (60_exceptions.md R308, R323): the processor is not
halted, no reset is presented, and a request, if one is presented, is not acceptable. -/
structure ExecutesNext (s : State) : Prop where
  /-- `halted = 0`. -/
  halted : s.halted = false
  /-- No reset is presented. -/
  noReset : s.presented ≠ .reset
  /-- A request finds IFF 0 or int_inhibit 1. -/
  noAccept : ∀ i, s.presented = .request i → s.iff = false ∨ s.intInhibit = true

/-- Every byte of memory is as before. -/
def KeepsMemory (s t : State) : Prop := ∀ x, t.byteAt x = s.byteAt x

/-- `v` stands at `x` if `x` is RAM, and every byte at another address is as before. -/
def StoresByte (s t : State) (x : Word) (v : Byte) : Prop :=
  (s.kindAt x = .ram → t.byteAt x = v) ∧ ∀ y, y ≠ x → t.byteAt y = s.byteAt y

/-- `v` stands at `x` and `w` at `y`, each if its address is RAM; every other byte is as before. -/
def StoresTwoBytes (s t : State) (x : Word) (v : Byte) (y : Word) (w : Byte) : Prop :=
  (s.kindAt x = .ram → t.byteAt x = v) ∧ (s.kindAt y = .ram → t.byteAt y = w) ∧
    ∀ z, z ≠ x → z ≠ y → t.byteAt z = s.byteAt z

/-- Only general registers in `w` (and pc and int_inhibit) may differ. -/
def OnlyRegs (s t : State) (w : List Reg8) : Prop :=
  Untouched s t w ∧ t.sp = s.sp ∧ t.flags = s.flags ∧ KeepsMemory s t

/-- Only general registers in `w` and flags (and pc and int_inhibit) may differ. -/
def OnlyRegsAndFlags (s t : State) (w : List Reg8) : Prop :=
  Untouched s t w ∧ t.sp = s.sp ∧ KeepsMemory s t

/-- The number of 1 bits of a byte is even. -/
def EvenOnes (v : Byte) : Prop := ((List.range 8).filter fun k => v.getLsbD k).length % 2 = 0

/-- S, Z and P follow from a result (00_scope.md R10). -/
def SzpFrom (f : Flags) (v : Byte) : Prop :=
  (f.s = true ↔ 128 ≤ v.toNat) ∧ (f.z = true ↔ v.toNat = 0) ∧ (f.p = true ↔ EvenOnes v)

/-- The half carry of a subtraction under the machine's `SUB_H`, a borrow into bit 3 given as `b`
(00_scope.md R12). -/
def HalfOfBorrow (half : Bool) (b : Prop) : Prop :=
  (Config.subH = .borrow → (half = true ↔ b)) ∧ (Config.subH = .carry → (half = true ↔ ¬ b))

/-- A packed-BCD byte: both digits 0 to 9. -/
def IsBcd (v : Byte) : Prop := v.toNat / 16 ≤ 9 ∧ v.toNat % 16 ≤ 9

/-- The number a packed-BCD byte stands for. -/
def bcdValue (v : Byte) : Nat := 10 * (v.toNat / 16) + v.toNat % 16

end Sys2Proof.Machine
end

