-- ==== Sys2Proof/Certificates/Slice0/Obligations.lean ====
section
/-! DEFINITION. The statements for the provers. Where a docstring names a decision D<n> of
92_eei_decisions.md, the statement formalises the spec's own choice, which its source does not make. -/

open Sys2Proof Sys2Proof.Machine
open Sys2Proof.Config (EnvEvent IoEvent MemKind)

/-! ## Encoding -/

/-- Decoding the bytes of a well-formed instruction gives it back, whatever follows them
(30_encoding.md R80 to R86; operand byte order by D1). -/
def Obligations.DecodeInvertsEncode : Prop :=
  ∀ (i : Instr) (rest : List Byte), i.WellFormed → decode (encode i ++ rest) = .ok (i, rest)

/-- What the decoder accepts are exactly encodings: the bytes it read are those the encoder writes
(R80 to R86; D1). -/
def Obligations.EncodeInvertsDecode : Prop :=
  ∀ (bytes rest : List Byte) (i : Instr), decode bytes = .ok (i, rest) →
    i.WellFormed ∧ bytes = encode i ++ rest

/-- Every opcode value is in exactly one row of the table, or is one of the twelve of R87 and in none
(30_encoding.md R86). -/
def Obligations.OpcodeRowsPartitionTheOpcodes : Prop :=
  opcodeRows.length = 111 ∧
  ∀ (op n : Byte) (nn : Word),
    (opcodeRows.filter fun row => (row.read op n nn).isSome).length =
      if op ∈ undefinedOpcodes then 0 else 1

/-- 30_encoding.md R80: the first byte alone decides the length, by the patterns given there; the three
formats; 26 three-byte, 18 two-byte and 200 one-byte opcodes among the defined ones. -/
def Obligations.OpcodeAloneFixesLengthAndFormat : Prop :=
  (∀ (op b2 b3 : Byte) (i : Instr), decodeInstr op b2 b3 = some i →
    i.length = lengthOfOpcode op ∧ 1 ≤ i.length ∧ i.length ≤ 3 ∧
    encode i = [op, b2, b3].take i.length) ∧
  (∀ op b2 b3 c2 c3 : Byte,
    (decodeInstr op b2 b3).isSome = (decodeInstr op c2 c3).isSome ∧
    (decodeInstr op b2 b3).map Instr.length = (decodeInstr op c2 c3).map Instr.length) ∧
  (let defined := ((List.range 256).map (BitVec.ofNat 8)).filter (· ∉ undefinedOpcodes)
   (defined.filter (lengthOfOpcode · = 3)).length = 26 ∧
   (defined.filter (lengthOfOpcode · = 2)).length = 18 ∧
   (defined.filter (lengthOfOpcode · = 1)).length = 200)

/-- A few words written out from the spec's encodings decode to their instructions, the two opcodes
that 90_conflicts.md corrects among them. -/
def Obligations.SampleWordsDecode : Prop :=
  decode [0x47] = .ok (.movRR .b .a, []) ∧
  decode [0x3E, 0x7F] = .ok (.mviR .a 0x7F, []) ∧
  decode [0x3A, 0x34, 0x12] = .ok (.lda 0x1234, []) ∧
  decode [0xAE] = .ok (.xraM, []) ∧
  decode [0xA6] = .ok (.anaM, []) ∧
  decode [0xDC, 0x00, 0x02] = .ok (.cc 0x0200, []) ∧
  decode [0xEF] = .ok (.rst 5, []) ∧
  decode [0x76] = .ok (.hlt, []) ∧
  decode [0xDD] = .error (.illegalOpcode 0xDD)

/-! ## The step -/

/-- A fetch from RAM or ROM reads the stored byte (10_state.md R24; 20_memory.md R50, R58, R65: D16, D19);
and when the processor is not halted, no reset is presented and no request is acceptable, and the bytes
at pc, pc + 1 and pc + 2 decode to an instruction, the step is that instruction's meaning on the state
with the boundary's event taken (10_state.md R24, 60_exceptions.md R308, R323: D23). The first clause
says what the fetched bytes of the second are; from an address that holds nothing they are free (log 7). -/
def Obligations.StepRunsTheDecodedInstruction : Prop :=
  (∀ (s : State) (x : Word), s.kindAt x = .ram ∨ s.kindAt x = .rom → s.fetchByte x = s.byteAt x) ∧
  (∀ (s : State) (i : Instr) (rest : List Byte), ExecutesNext s →
    decode [s.fetchByte s.pc, s.fetchByte (s.pc + 1), s.fetchByte (s.pc + 2)] = .ok (i, rest) →
    step s = exec i s.takeEvent)

/-- An undefined opcode value at pc faults, and no state changes because none is answered
(60_exceptions.md section 1; the spec's decision D11). -/
def Obligations.UndefinedOpcodeFaults : Prop :=
  ∀ s : State, ExecutesNext s → s.fetchByte s.pc ∈ undefinedOpcodes →
    step s = .fault (.illegalOpcode (s.fetchByte s.pc))

/-- A step stops only on an undefined opcode value: in every other state it answers a next state
(60_exceptions.md section 1: "Every one of the 244 defined opcode values completes in every state";
D11). -/
def Obligations.NothingElseStopsAStep : Prop :=
  ∀ s : State, ¬ (ExecutesNext s ∧ s.fetchByte s.pc ∈ undefinedOpcodes) →
    ∃ t, step s = .next t

/-- Every instruction completes in every state, also one no run reaches (60_exceptions.md section 1,
48_io.md R290, 46_call_return.md R250 and the like: "None raises an exception"). -/
def Obligations.EveryInstructionCompletes : Prop :=
  ∀ (i : Instr) (s : State), ∃ t, exec i s = .next t

/-- Interrupt acceptance: IFF and halted cleared, pc pushed high byte first, pc at `8 * i`, and nothing
else changed but the event taken (60_exceptions.md R306, R307: the spec's decision D13). -/
def Obligations.AcceptableInterruptIsTaken : Prop :=
  ∀ (s : State) (i : Fin 8), s.presented = .request i → s.iff = true → s.intInhibit = false →
    ∃ t, step s = .next t ∧ t.iff = false ∧ t.halted = false ∧ t.intInhibit = false ∧
      t.pc = BitVec.ofNat 16 (8 * i.val) ∧ t.sp = s.sp - 2 ∧
      StoresTwoBytes s t (s.sp - 1) (hi s.pc) (s.sp - 2) (lo s.pc) ∧
      (∀ r, t.reg r = s.reg r) ∧ t.flags = s.flags ∧ t.memMap = s.memMap ∧
      t.ioAnswers = s.ioAnswers ∧ t.history = s.history ∧ t.events = s.events.tail

/-- A request that finds IFF clear or int_inhibit set has no effect: the step is the one without it
(60_exceptions.md R305, R306: the spec's decisions D13, D14). -/
def Obligations.UnacceptableRequestHasNoEffect : Prop :=
  ∀ (s : State) (i : Fin 8) (rest : List EnvEvent), s.events = .request i :: rest →
    s.iff = false ∨ s.intInhibit = true →
    step s = step { s with events := .quiet :: rest }

/-- While halted with no acceptable request and no reset, nothing changes but the event taken
(10_state.md R33, 60_exceptions.md R309: the spec's decision D15). -/
def Obligations.HaltedProcessorStutters : Prop :=
  ∀ s : State, s.halted = true → s.presented ≠ .reset →
    (∀ i, s.presented = .request i → s.iff = false ∨ s.intInhibit = true) →
    step s = .next { s with events := s.events.tail }

/-- A reset in a run, in any state: the four components it sets, and what it does not touch
(10_state.md R37, 70_reset_and_hazards.md R330, R331: the spec's decision D12). -/
def Obligations.ResetEventRestarts : Prop :=
  ∀ s : State, s.presented = .reset →
    ∃ t, step s = .next t ∧ t.pc = 0 ∧ t.iff = false ∧ t.halted = false ∧ t.intInhibit = false ∧
      KeepsMemory s t ∧ t.memMap = s.memMap ∧ t.ioAnswers = s.ioAnswers ∧
      t.history = s.history ∧ t.events = s.events.tail

/-- The machine right after reset: pc, IFF, halted and int_inhibit as 10_state.md R37 gives them (the
spec's decision D12). The last clause, the empty event history, is no component R37 gives a value: it is
the model's choice (log 8; 20_memory.md R52), no port access having happened. -/
def Obligations.ResetStateIsTheSpecs : Prop :=
  State.reset.pc = 0 ∧ State.reset.iff = false ∧ State.reset.halted = false ∧
    State.reset.intInhibit = false ∧ State.reset.history = []

/-! ## Invariants and whole-machine rules -/

/-- Every step keeps the canonical form of memory (the model's form of 20_memory.md R50; log 5). -/
def Obligations.StepKeepsMemoryCanonical : Prop :=
  ∀ s t : State, Memory.wf s.mem = true → step s = .next t → Memory.wf t.mem = true

/-- The memory after reset has the canonical form (log 5). -/
def Obligations.ResetMemoryIsCanonical : Prop := Memory.wf State.reset.mem = true

/-- Memory is plain storage: where the map has RAM or ROM, `MemRead` gives the stored byte (20_memory.md
R50, R58, R59; for a fetch see `StepRunsTheDecodedInstruction`); the map never changes, and no step and
no instruction changes a byte that is not in RAM (R59). The spec's decision D16. -/
def Obligations.OnlyRamBytesChange : Prop :=
  (∀ (s : State) (x : Word), s.kindAt x = .ram ∨ s.kindAt x = .rom → s.memRead x = s.byteAt x) ∧
  (∀ s t : State, step s = .next t →
    t.memMap = s.memMap ∧ ∀ x, s.kindAt x ≠ .ram → t.byteAt x = s.byteAt x) ∧
  (∀ (i : Instr) (s t : State), exec i s = .next t →
    t.memMap = s.memMap ∧ ∀ x, s.kindAt x ≠ .ram → t.byteAt x = s.byteAt x)

/-- An instruction changes no byte but at the addresses the table of 20_memory.md R55 lists for it. -/
def Obligations.OnlyListedAddressesAreStored : Prop :=
  ∀ (i : Instr) (s t : State), exec i s = .next t →
    ∀ x, x ∉ storedAddresses i s → t.byteAt x = s.byteAt x

/-- The event history grows by the port accesses of IN and OUT and by nothing else (20_memory.md R52:
the spec's decision D17). -/
def Obligations.HistoryRecordsPortAccesses : Prop :=
  ∀ (i : Instr) (s t : State), exec i s = .next t →
    (∀ n, i = .inPort n → t.history = s.history ++ [IoEvent.read n t.a]) ∧
    (∀ n, i = .outPort n → t.history = s.history ++ [IoEvent.write n s.a]) ∧
    ((∀ n, i ≠ .inPort n) → (∀ n, i ≠ .outPort n) →
      t.history = s.history ∧ t.ioAnswers = s.ioAnswers)

/-- int_inhibit after an instruction is 1 exactly after EI and DI (10_state.md R34: the spec's decision
D14). -/
def Obligations.InhibitFollowsEiAndDi : Prop :=
  ∀ (i : Instr) (s t : State), exec i s = .next t →
    (t.intInhibit = true ↔ i = .ei ∨ i = .di)

/-- Among the instructions, EI alone sets IFF, DI alone clears it, HLT alone sets halted
(10_state.md R30, R33). -/
def Obligations.ControlBitsHaveOnlyTheirWriters : Prop :=
  ∀ (i : Instr) (s t : State), exec i s = .next t →
    (i = .ei → t.iff = true) ∧ (i = .di → t.iff = false) ∧
    (i ≠ .ei → i ≠ .di → t.iff = s.iff) ∧
    (i = .hlt → t.halted = true) ∧ (i ≠ .hlt → t.halted = s.halted)

/-- 10_state.md R27: which instructions write which flags. -/
def Obligations.FlagWriteTable : Prop :=
  ∀ (i : Instr) (s t : State), exec i s = .next t →
    (flagRow i).s.allows s.flags.s t.flags.s ∧ (flagRow i).z.allows s.flags.z t.flags.z ∧
    (flagRow i).h.allows s.flags.h t.flags.h ∧ (flagRow i).p.allows s.flags.p t.flags.p ∧
    (flagRow i).c.allows s.flags.c t.flags.c

/-- pc moves to the following instruction unless the instruction is one that assigns it (10_state.md
R24, R25: the spec's decisions D9, D10). -/
def Obligations.PcAdvancesUnlessAssigned : Prop :=
  ∀ (i : Instr) (s t : State), exec i s = .next t → assignsPc i = false →
    t.pc = s.pc + BitVec.ofNat 16 (encode i).length

/-- SP changes only by the instructions 10_state.md R23 lists. -/
def Obligations.StackPointerHasOnlyItsWriters : Prop :=
  ∀ (i : Instr) (s t : State), exec i s = .next t → writesSP i = false → t.sp = s.sp

/-- Once a run is finished, every later step only takes an event, as long as no reset comes
(70_reset_and_hazards.md R337: the spec's decision D25). -/
def Obligations.FinishedRunStaysFinished : Prop :=
  ∀ (k : Nat) (s : State), s.finished = true → s.noResets = true →
    Host.Core.run core k s = .next { s with events := s.events.drop k } ∧
    State.finished { s with events := s.events.drop k } = true

/-- After a step that executes EI (FBh), unless a reset is presented, the next boundary lets an
instruction execute whatever request it presents, IFF being 1, and the step there is the instruction's
(70_reset_and_hazards.md R334: the spec's decision D14). -/
def Obligations.InstructionAfterEiExecutes : Prop :=
  ∀ s t : State, ExecutesNext s → s.fetchByte s.pc = 0xFB → step s = .next t →
    t.presented ≠ .reset →
    ExecutesNext t ∧ t.iff = true ∧ t.boundary = .execute ∧
      ∀ i, t.fetch = some i → step t = exec i t.takeEvent

/-! ## 8-bit moves -/

/-- 40_move8.md R101, R102: `x[ddd] <- x[sss]` and `x[ddd] <- n`; nothing else but pc (and int_inhibit)
changes. Their columns are stated too. -/
def Obligations.MovAndMviWriteTheRegister : Prop :=
  (∀ rd rs : Reg8, HasColumns (.movRR rd rs) [pattern 0b01 rd.code rs.code] 1 4) ∧
  (∀ (rd : Reg8) (n : Byte), HasColumns (.mviR rd n) [pattern 0b00 rd.code 0b110, n] 2 7) ∧
  (∀ (rd rs : Reg8) (s : State), ∃ t, exec (.movRR rd rs) s = .next t ∧
    t.reg rd = s.reg rs ∧ OnlyRegs s t [rd]) ∧
  (∀ (rd : Reg8) (n : Byte) (s : State), ∃ t, exec (.mviR rd n) s = .next t ∧
    t.reg rd = n ∧ OnlyRegs s t [rd])

/-- R103, R106, R107, R108: the register takes the byte `MemRead` gives at HL, BC, DE, `nn`. The
columns of the first three are stated too. -/
def Obligations.ByteLoadsWriteTheRegister : Prop :=
  (∀ rd : Reg8, HasColumns (.movRM rd) [pattern 0b01 rd.code 0b110] 2 7) ∧
  HasColumns .ldaxB [0x0A] 2 7 ∧ HasColumns .ldaxD [0x1A] 2 7 ∧
  (∀ (rd : Reg8) (s : State), ∃ t, exec (.movRM rd) s = .next t ∧
    t.reg rd = s.memRead s.hl ∧ OnlyRegs s t [rd]) ∧
  (∀ s : State, ∃ t, exec .ldaxB s = .next t ∧ t.a = s.memRead s.bc ∧ OnlyRegs s t [.a]) ∧
  (∀ s : State, ∃ t, exec .ldaxD s = .next t ∧ t.a = s.memRead s.de ∧ OnlyRegs s t [.a]) ∧
  (∀ (nn : Word) (s : State), ∃ t, exec (.lda nn) s = .next t ∧ t.a = s.memRead nn ∧
    OnlyRegs s t [.a])

/-- R104, R105, R109, R110, R111: the byte goes to HL, BC, DE, `nn`; no register or flag changes. An
address that is not RAM is the subject of `OnlyRamBytesChange`. The columns of all but STA are stated too. -/
def Obligations.ByteStoresWriteTheByte : Prop :=
  (∀ rs : Reg8, HasColumns (.movMR rs) [pattern 0b01 0b110 rs.code] 2 7) ∧
  (∀ n : Byte, HasColumns (.mviM n) [0x36, n] 3 10) ∧
  HasColumns .staxB [0x02] 2 7 ∧ HasColumns .staxD [0x12] 2 7 ∧
  (∀ (rs : Reg8) (s : State), ∃ t, exec (.movMR rs) s = .next t ∧
    StoresByte s t s.hl (s.reg rs) ∧ Untouched s t [] ∧ t.sp = s.sp ∧ t.flags = s.flags) ∧
  (∀ (n : Byte) (s : State), ∃ t, exec (.mviM n) s = .next t ∧
    StoresByte s t s.hl n ∧ Untouched s t [] ∧ t.sp = s.sp ∧ t.flags = s.flags) ∧
  (∀ s : State, ∃ t, exec .staxB s = .next t ∧
    StoresByte s t s.bc s.a ∧ Untouched s t [] ∧ t.sp = s.sp ∧ t.flags = s.flags) ∧
  (∀ s : State, ∃ t, exec .staxD s = .next t ∧
    StoresByte s t s.de s.a ∧ Untouched s t [] ∧ t.sp = s.sp ∧ t.flags = s.flags) ∧
  (∀ (nn : Word) (s : State), ∃ t, exec (.sta nn) s = .next t ∧
    StoresByte s t nn s.a ∧ Untouched s t [] ∧ t.sp = s.sp ∧ t.flags = s.flags)

/-! ## 16-bit moves and the stack -/

/-- 41_move16.md R121 to R124: `LXI` loads BC, DE, HL or SP. -/
def Obligations.LxiLoadsThePair : Prop :=
  (∀ (nn : Word) (s : State), ∃ t, exec (.lxiB nn) s = .next t ∧
    t.b = hi nn ∧ t.c = lo nn ∧ OnlyRegs s t [.b, .c]) ∧
  (∀ (nn : Word) (s : State), ∃ t, exec (.lxiD nn) s = .next t ∧
    t.d = hi nn ∧ t.e = lo nn ∧ OnlyRegs s t [.d, .e]) ∧
  (∀ (nn : Word) (s : State), ∃ t, exec (.lxiH nn) s = .next t ∧
    t.h = hi nn ∧ t.l = lo nn ∧ OnlyRegs s t [.h, .l]) ∧
  (∀ (nn : Word) (s : State), ∃ t, exec (.lxiSP nn) s = .next t ∧
    t.sp = nn ∧ Untouched s t [] ∧ t.flags = s.flags ∧ KeepsMemory s t)

/-- R125, R126: LHLD and SHLD move HL, the low byte at `nn`, the high byte at `mod16(nn + 1)`
(wrap: the spec's decision D10). -/
def Obligations.LhldAndShldMoveHL : Prop :=
  (∀ (nn : Word) (s : State), ∃ t, exec (.lhld nn) s = .next t ∧
    t.l = s.memRead nn ∧ t.h = s.memRead (nn + 1) ∧ OnlyRegs s t [.h, .l]) ∧
  (∀ (nn : Word) (s : State), ∃ t, exec (.shld nn) s = .next t ∧
    StoresTwoBytes s t nn s.l (nn + 1) s.h ∧ Untouched s t [] ∧ t.sp = s.sp ∧
    t.flags = s.flags)

/-- R127, R128, R129: SPHL copies HL to SP, XCHG exchanges DE and HL, XTHL exchanges HL and the stack
top (wrap of SP + 1: the spec's decision D10). -/
def Obligations.SphlXchgXthlMoveHL : Prop :=
  (∀ s : State, ∃ t, exec .sphl s = .next t ∧
    t.sp = s.hl ∧ Untouched s t [] ∧ t.flags = s.flags ∧ KeepsMemory s t) ∧
  (∀ s : State, ∃ t, exec .xchg s = .next t ∧
    t.d = s.h ∧ t.e = s.l ∧ t.h = s.d ∧ t.l = s.e ∧ OnlyRegs s t [.d, .e, .h, .l]) ∧
  (∀ s : State, ∃ t, exec .xthl s = .next t ∧
    t.h = s.memRead (s.sp + 1) ∧ t.l = s.memRead s.sp ∧
    StoresTwoBytes s t (s.sp + 1) s.h s.sp s.l ∧
    Untouched s t [.h, .l] ∧ t.sp = s.sp ∧ t.flags = s.flags)

/-- R138, R139, R140: a pair is pushed, its high byte to SP - 1, its low byte to SP - 2, with wrap
(the spec's decision D10). -/
def Obligations.PushStoresThePair : Prop :=
  (∀ s : State, ∃ t, exec .pushB s = .next t ∧ t.sp = s.sp - 2 ∧
    StoresTwoBytes s t (s.sp - 1) s.b (s.sp - 2) s.c ∧ Untouched s t [] ∧ t.flags = s.flags) ∧
  (∀ s : State, ∃ t, exec .pushD s = .next t ∧ t.sp = s.sp - 2 ∧
    StoresTwoBytes s t (s.sp - 1) s.d (s.sp - 2) s.e ∧ Untouched s t [] ∧ t.flags = s.flags) ∧
  (∀ s : State, ∃ t, exec .pushH s = .next t ∧ t.sp = s.sp - 2 ∧
    StoresTwoBytes s t (s.sp - 1) s.h (s.sp - 2) s.l ∧ Untouched s t [] ∧ t.flags = s.flags)

/-- R142, R143, R144: a pair is popped, its low byte from SP, its high byte from SP + 1; memory stays
(wrap: the spec's decision D10). -/
def Obligations.PopLoadsThePair : Prop :=
  (∀ s : State, ∃ t, exec .popB s = .next t ∧ t.sp = s.sp + 2 ∧
    t.c = s.memRead s.sp ∧ t.b = s.memRead (s.sp + 1) ∧
    Untouched s t [.b, .c] ∧ t.flags = s.flags ∧ KeepsMemory s t) ∧
  (∀ s : State, ∃ t, exec .popD s = .next t ∧ t.sp = s.sp + 2 ∧
    t.e = s.memRead s.sp ∧ t.d = s.memRead (s.sp + 1) ∧
    Untouched s t [.d, .e] ∧ t.flags = s.flags ∧ KeepsMemory s t) ∧
  (∀ s : State, ∃ t, exec .popH s = .next t ∧ t.sp = s.sp + 2 ∧
    t.l = s.memRead s.sp ∧ t.h = s.memRead (s.sp + 1) ∧
    Untouched s t [.h, .l] ∧ t.flags = s.flags ∧ KeepsMemory s t)

/-- PUSH PSW stores A at SP - 1 and, at SP - 2, a byte whose bits 7, 6, 4, 2, 0 are S, Z, H, P, C; its
other three bits are free (10_state.md R28, 41_move16.md R141: the spec's decision D5; log 2). -/
def Obligations.PushPswStoresAccAndFlags : Prop :=
  ∀ s : State, ∃ t v, exec .pushPSW s = .next t ∧ t.sp = s.sp - 2 ∧
    StoresTwoBytes s t (s.sp - 1) s.a (s.sp - 2) v ∧
    v.getLsbD 7 = s.flags.s ∧ v.getLsbD 6 = s.flags.z ∧ v.getLsbD 4 = s.flags.h ∧
    v.getLsbD 2 = s.flags.p ∧ v.getLsbD 0 = s.flags.c ∧
    Untouched s t [] ∧ t.flags = s.flags

/-- POP PSW loads A from SP + 1 and the five flags from bits 7, 6, 4, 2, 0 of the byte at SP
(41_move16.md R145, 90_conflicts.md C5; layout by the spec's decision D5). -/
def Obligations.PopPswLoadsAccAndFlags : Prop :=
  ∀ s : State, ∃ t, exec .popPSW s = .next t ∧ t.sp = s.sp + 2 ∧
    t.a = s.memRead (s.sp + 1) ∧
    t.flags.s = (s.memRead s.sp).getLsbD 7 ∧ t.flags.z = (s.memRead s.sp).getLsbD 6 ∧
    t.flags.h = (s.memRead s.sp).getLsbD 4 ∧ t.flags.p = (s.memRead s.sp).getLsbD 2 ∧
    t.flags.c = (s.memRead s.sp).getLsbD 0 ∧
    Untouched s t [.a] ∧ KeepsMemory s t

/-- POP PSW restores A and all five flags that a PUSH PSW saved, when SP is back and the two stack
bytes, in RAM, are undisturbed (10_state.md R28, layout by D5). -/
def Obligations.PopPswRestoresWhatPushPswSaved : Prop :=
  ∀ s t u v : State, exec .pushPSW s = .next t →
    s.kindAt (s.sp - 1) = .ram → s.kindAt (s.sp - 2) = .ram →
    u.sp = t.sp → u.memMap = t.memMap →
    u.byteAt (s.sp - 1) = t.byteAt (s.sp - 1) → u.byteAt (s.sp - 2) = t.byteAt (s.sp - 2) →
    exec .popPSW u = .next v →
    v.a = s.a ∧ v.flags = s.flags ∧ v.sp = s.sp

/-! ## 8-bit arithmetic and logic -/

/-- What the add group does with a second operand `b` and a carry in: A takes the sum, the five flags
follow from it (42_alu8.md R151). -/
def AddsToAcc (s t : State) (b : Byte) (cin : Bool) : Prop :=
  t.a.toNat = (s.a.toNat + b.toNat + cin.toNat) % 256 ∧ SzpFrom t.flags t.a ∧
  (t.flags.h = true ↔ 15 < s.a.toNat % 16 + b.toNat % 16 + cin.toNat) ∧
  (t.flags.c = true ↔ 255 < s.a.toNat + b.toNat + cin.toNat) ∧ OnlyRegsAndFlags s t [.a]

/-- ADD, ADI, ADC, ACI in their register, immediate and M forms (42_alu8.md R157 to R162; flags by the
spec's decisions D2, D3). -/
def Obligations.AddGroupAddsWithFlags : Prop :=
  (∀ (rs : Reg8) (s : State), ∃ t, exec (.addR rs) s = .next t ∧ AddsToAcc s t (s.reg rs) false) ∧
  (∀ (n : Byte) (s : State), ∃ t, exec (.adi n) s = .next t ∧ AddsToAcc s t n false) ∧
  (∀ s : State, ∃ t, exec .addM s = .next t ∧ AddsToAcc s t (s.memRead s.hl) false) ∧
  (∀ (rs : Reg8) (s : State), ∃ t, exec (.adcR rs) s = .next t ∧
    AddsToAcc s t (s.reg rs) s.flags.c) ∧
  (∀ (n : Byte) (s : State), ∃ t, exec (.aci n) s = .next t ∧ AddsToAcc s t n s.flags.c) ∧
  (∀ s : State, ∃ t, exec .adcM s = .next t ∧ AddsToAcc s t (s.memRead s.hl) s.flags.c)

/-- What the subtract group does with a second operand `b` and a borrow in (42_alu8.md R152). -/
def SubtractsFromAcc (s t : State) (b : Byte) (bin : Bool) : Prop :=
  t.a.toNat = (256 + s.a.toNat - (b.toNat + bin.toNat)) % 256 ∧ SzpFrom t.flags t.a ∧
  HalfOfBorrow t.flags.h (s.a.toNat % 16 < b.toNat % 16 + bin.toNat) ∧
  (t.flags.c = true ↔ s.a.toNat < b.toNat + bin.toNat) ∧ OnlyRegsAndFlags s t [.a]

/-- SUB, SUI, SBB, SBI in their three forms, for either `SUB_H` (42_alu8.md R163 to R168; flags by the
spec's decisions D2, D3, D4; log 1). -/
def Obligations.SubGroupSubtractsWithFlags : Prop :=
  (∀ (rs : Reg8) (s : State), ∃ t, exec (.subR rs) s = .next t ∧
    SubtractsFromAcc s t (s.reg rs) false) ∧
  (∀ (n : Byte) (s : State), ∃ t, exec (.sui n) s = .next t ∧ SubtractsFromAcc s t n false) ∧
  (∀ s : State, ∃ t, exec .subM s = .next t ∧ SubtractsFromAcc s t (s.memRead s.hl) false) ∧
  (∀ (rs : Reg8) (s : State), ∃ t, exec (.sbbR rs) s = .next t ∧
    SubtractsFromAcc s t (s.reg rs) s.flags.c) ∧
  (∀ (n : Byte) (s : State), ∃ t, exec (.sbi n) s = .next t ∧ SubtractsFromAcc s t n s.flags.c) ∧
  (∀ s : State, ∃ t, exec .sbbM s = .next t ∧ SubtractsFromAcc s t (s.memRead s.hl) s.flags.c)

/-- What a compare does: Z says equal, C says unsigned less, S and P are of the difference, A stays
(42_alu8.md R152). -/
def ComparesAcc (s t : State) (b : Byte) : Prop :=
  (t.flags.z = true ↔ s.a = b) ∧ (t.flags.c = true ↔ s.a.toNat < b.toNat) ∧
  (t.flags.s = true ↔ 128 ≤ (256 + s.a.toNat - b.toNat) % 256) ∧
  (t.flags.p = true ↔ EvenOnes (s.a - b)) ∧
  HalfOfBorrow t.flags.h (s.a.toNat % 16 < b.toNat % 16) ∧ OnlyRegsAndFlags s t []

/-- CMP, CPI in their three forms, for either `SUB_H` (42_alu8.md R169 to R171; D2, D3, D4; log 1). -/
def Obligations.CompareGroupSetsFlagsOnly : Prop :=
  (∀ (rs : Reg8) (s : State), ∃ t, exec (.cmpR rs) s = .next t ∧ ComparesAcc s t (s.reg rs)) ∧
  (∀ (n : Byte) (s : State), ∃ t, exec (.cpi n) s = .next t ∧ ComparesAcc s t n) ∧
  (∀ s : State, ∃ t, exec .cmpM s = .next t ∧ ComparesAcc s t (s.memRead s.hl))

/-- What the logic group does with its bitwise result: H stays, C is cleared (42_alu8.md R153). -/
def LogicToAcc (s t : State) (v : Byte) : Prop :=
  t.a = v ∧ SzpFrom t.flags v ∧ t.flags.h = s.flags.h ∧ t.flags.c = false ∧
  OnlyRegsAndFlags s t [.a]

/-- ANA, ORA, XRA and their immediate and M forms (42_alu8.md R172 to R180; S, Z, P by D2, D3). -/
def Obligations.LogicGroupKeepsHalfCarry : Prop :=
  (∀ (rs : Reg8) (s : State), ∃ t, exec (.anaR rs) s = .next t ∧ LogicToAcc s t (s.a &&& s.reg rs)) ∧
  (∀ (n : Byte) (s : State), ∃ t, exec (.ani n) s = .next t ∧ LogicToAcc s t (s.a &&& n)) ∧
  (∀ s : State, ∃ t, exec .anaM s = .next t ∧ LogicToAcc s t (s.a &&& s.memRead s.hl)) ∧
  (∀ (rs : Reg8) (s : State), ∃ t, exec (.oraR rs) s = .next t ∧ LogicToAcc s t (s.a ||| s.reg rs)) ∧
  (∀ (n : Byte) (s : State), ∃ t, exec (.ori n) s = .next t ∧ LogicToAcc s t (s.a ||| n)) ∧
  (∀ s : State, ∃ t, exec .oraM s = .next t ∧ LogicToAcc s t (s.a ||| s.memRead s.hl)) ∧
  (∀ (rs : Reg8) (s : State), ∃ t, exec (.xraR rs) s = .next t ∧ LogicToAcc s t (s.a ^^^ s.reg rs)) ∧
  (∀ (n : Byte) (s : State), ∃ t, exec (.xri n) s = .next t ∧ LogicToAcc s t (s.a ^^^ n)) ∧
  (∀ s : State, ∃ t, exec .xraM s = .next t ∧ LogicToAcc s t (s.a ^^^ s.memRead s.hl))

/-- INR r and INR M: the operand plus 1, modulo 256; H the carry out of bit 3; C stays (42_alu8.md
R181, R182; flags by D2, D3). -/
def Obligations.IncrementKeepsCarry : Prop :=
  (∀ (rd : Reg8) (s : State), ∃ t, exec (.inrR rd) s = .next t ∧
    (t.reg rd).toNat = ((s.reg rd).toNat + 1) % 256 ∧ SzpFrom t.flags (t.reg rd) ∧
    (t.flags.h = true ↔ (s.reg rd).toNat % 16 = 15) ∧ t.flags.c = s.flags.c ∧
    OnlyRegsAndFlags s t [rd]) ∧
  (∀ s : State, ∃ t v, exec .inrM s = .next t ∧
    v.toNat = ((s.memRead s.hl).toNat + 1) % 256 ∧ StoresByte s t s.hl v ∧ SzpFrom t.flags v ∧
    (t.flags.h = true ↔ (s.memRead s.hl).toNat % 16 = 15) ∧ t.flags.c = s.flags.c ∧
    Untouched s t [] ∧ t.sp = s.sp)

/-- DCR r and DCR M: the operand minus 1, modulo 256; H by `SUB_H`, the half borrow occurring exactly
when the low digit was 0; C stays (42_alu8.md R183, R184; D2, D3, D4; log 1). -/
def Obligations.DecrementKeepsCarry : Prop :=
  (∀ (rd : Reg8) (s : State), ∃ t, exec (.dcrR rd) s = .next t ∧
    (t.reg rd).toNat = ((s.reg rd).toNat + 255) % 256 ∧ SzpFrom t.flags (t.reg rd) ∧
    HalfOfBorrow t.flags.h ((s.reg rd).toNat % 16 = 0) ∧ t.flags.c = s.flags.c ∧
    OnlyRegsAndFlags s t [rd]) ∧
  (∀ s : State, ∃ t v, exec .dcrM s = .next t ∧
    v.toNat = ((s.memRead s.hl).toNat + 255) % 256 ∧ StoresByte s t s.hl v ∧ SzpFrom t.flags v ∧
    HalfOfBorrow t.flags.h ((s.memRead s.hl).toNat % 16 = 0) ∧ t.flags.c = s.flags.c ∧
    Untouched s t [] ∧ t.sp = s.sp)

/-- DAA adds 06h when H is set or the low digit exceeds 9, and 60h when C is set, the high digit exceeds
9, or it is 9 with the low digit above 9; C is set by the second and never cleared (42_alu8.md R186:
the spec's decision D7). -/
def Obligations.DaaCorrectsTheAccumulator : Prop :=
  ∀ s : State, ∃ t low high, exec .daa s = .next t ∧
    ((s.flags.h = true ∨ 9 < s.a.toNat % 16) → low = 6) ∧
    (¬ (s.flags.h = true ∨ 9 < s.a.toNat % 16) → low = 0) ∧
    ((s.flags.c = true ∨ 9 < s.a.toNat / 16 ∨ (s.a.toNat / 16 = 9 ∧ 9 < s.a.toNat % 16)) →
      high = 96) ∧
    (¬ (s.flags.c = true ∨ 9 < s.a.toNat / 16 ∨ (s.a.toNat / 16 = 9 ∧ 9 < s.a.toNat % 16)) →
      high = 0) ∧
    t.a.toNat = (s.a.toNat + low + high) % 256 ∧ SzpFrom t.flags t.a ∧
    (t.flags.h = true ↔ 15 < s.a.toNat % 16 + low) ∧
    (t.flags.c = true ↔ s.flags.c = true ∨ high = 96) ∧ OnlyRegsAndFlags s t [.a]

/-- On packed-BCD operands `A` and `b`, instruction `i` and then DAA complete and leave the packed-BCD sum
with the carry in: A holds its two low digits and C its hundreds. -/
def AddsDecimally (i : Instr) (s : State) (b : Byte) (cin : Bool) : Prop :=
  IsBcd s.a → IsBcd b → ∃ t u, exec i s = .next t ∧ exec .daa t = .next u ∧ IsBcd u.a ∧
    bcdValue u.a + 100 * u.flags.c.toNat = bcdValue s.a + bcdValue b + cin.toNat

/-- DAA after ADD, ADI, ADC or ACI, the M forms among them, on packed-BCD operands is decimal addition
(42_alu8.md R186, "following add with packed BCD operands": the spec's decision D7). -/
def Obligations.DaaAfterAddIsDecimalAddition : Prop :=
  (∀ (rs : Reg8) (s : State), AddsDecimally (.addR rs) s (s.reg rs) false) ∧
  (∀ (n : Byte) (s : State), AddsDecimally (.adi n) s n false) ∧
  (∀ s : State, AddsDecimally .addM s (s.memRead s.hl) false) ∧
  (∀ (rs : Reg8) (s : State), AddsDecimally (.adcR rs) s (s.reg rs) s.flags.c) ∧
  (∀ (n : Byte) (s : State), AddsDecimally (.aci n) s n s.flags.c) ∧
  (∀ s : State, AddsDecimally .adcM s (s.memRead s.hl) s.flags.c)

/-- 42_alu8.md R187: CMA inverts every bit of A and changes no flag. -/
def Obligations.CmaInvertsTheAccumulator : Prop :=
  HasColumns .cma [0x2F] 1 4 ∧
  ∀ s : State, ∃ t, exec .cma s = .next t ∧
    (∀ k, k < 8 → t.a.getLsbD k = !s.a.getLsbD k) ∧ OnlyRegs s t [.a]

/-! ## 16-bit arithmetic -/

/-- What DAD does with its pair: HL takes the sum modulo 65536, C the carry out of bit 15, the other
four flags stay (43_arith16.md R200). -/
def AddsToHL (s t : State) (v : Word) : Prop :=
  t.hl.toNat = (s.hl.toNat + v.toNat) % 65536 ∧
  (t.flags.c = true ↔ 65535 < s.hl.toNat + v.toNat) ∧
  t.flags.s = s.flags.s ∧ t.flags.z = s.flags.z ∧ t.flags.h = s.flags.h ∧ t.flags.p = s.flags.p ∧
  OnlyRegsAndFlags s t [.h, .l]

/-- DAD B, D, H, SP (43_arith16.md R201 to R204, 90_conflicts.md C3; C by the spec's decision D2). -/
def Obligations.DadAddsIntoHL : Prop :=
  (∀ s : State, ∃ t, exec .dadB s = .next t ∧ AddsToHL s t s.bc) ∧
  (∀ s : State, ∃ t, exec .dadD s = .next t ∧ AddsToHL s t s.de) ∧
  (∀ s : State, ∃ t, exec .dadH s = .next t ∧ AddsToHL s t s.hl) ∧
  (∀ s : State, ∃ t, exec .dadSP s = .next t ∧ AddsToHL s t s.sp)

/-- 43_arith16.md R205 to R212: INX and DCX move a pair or SP by one and change no flag; the wrap modulo
65536 is the spec's decision D10. Their columns are stated too. -/
def Obligations.InxAndDcxChangeNoFlag : Prop :=
  HasColumns .inxB [0x03] 1 6 ∧ HasColumns .inxD [0x13] 1 6 ∧
  HasColumns .inxH [0x23] 1 6 ∧ HasColumns .inxSP [0x33] 1 6 ∧
  HasColumns .dcxB [0x0B] 1 6 ∧ HasColumns .dcxD [0x1B] 1 6 ∧
  HasColumns .dcxH [0x2B] 1 6 ∧ HasColumns .dcxSP [0x3B] 1 6 ∧
  (∀ s : State, ∃ t, exec .inxB s = .next t ∧
    t.bc.toNat = (s.bc.toNat + 1) % 65536 ∧ OnlyRegs s t [.b, .c]) ∧
  (∀ s : State, ∃ t, exec .inxD s = .next t ∧
    t.de.toNat = (s.de.toNat + 1) % 65536 ∧ OnlyRegs s t [.d, .e]) ∧
  (∀ s : State, ∃ t, exec .inxH s = .next t ∧
    t.hl.toNat = (s.hl.toNat + 1) % 65536 ∧ OnlyRegs s t [.h, .l]) ∧
  (∀ s : State, ∃ t, exec .inxSP s = .next t ∧
    t.sp.toNat = (s.sp.toNat + 1) % 65536 ∧ Untouched s t [] ∧ t.flags = s.flags ∧
    KeepsMemory s t) ∧
  (∀ s : State, ∃ t, exec .dcxB s = .next t ∧
    t.bc.toNat = (s.bc.toNat + 65535) % 65536 ∧ OnlyRegs s t [.b, .c]) ∧
  (∀ s : State, ∃ t, exec .dcxD s = .next t ∧
    t.de.toNat = (s.de.toNat + 65535) % 65536 ∧ OnlyRegs s t [.d, .e]) ∧
  (∀ s : State, ∃ t, exec .dcxH s = .next t ∧
    t.hl.toNat = (s.hl.toNat + 65535) % 65536 ∧ OnlyRegs s t [.h, .l]) ∧
  (∀ s : State, ∃ t, exec .dcxSP s = .next t ∧
    t.sp.toNat = (s.sp.toNat + 65535) % 65536 ∧ Untouched s t [] ∧ t.flags = s.flags ∧
    KeepsMemory s t)

/-! ## CPU control -/

/-- 44_cpu_control.md R221, R222: CMC complements C, STC sets it; S, Z, H, P stay. -/
def Obligations.CmcAndStcWriteOnlyCarry : Prop :=
  HasColumns .cmc [0x3F] 1 4 ∧ HasColumns .stc [0x37] 1 4 ∧
  (∀ s : State, ∃ t, exec .cmc s = .next t ∧ t.flags.c = !s.flags.c ∧
    t.flags.s = s.flags.s ∧ t.flags.z = s.flags.z ∧ t.flags.h = s.flags.h ∧
    t.flags.p = s.flags.p ∧ OnlyRegsAndFlags s t []) ∧
  (∀ s : State, ∃ t, exec .stc s = .next t ∧ t.flags.c = true ∧
    t.flags.s = s.flags.s ∧ t.flags.z = s.flags.z ∧ t.flags.h = s.flags.h ∧
    t.flags.p = s.flags.p ∧ OnlyRegsAndFlags s t [])

/-- NOP changes pc and int_inhibit only; HLT also sets halted, pc being already past it (44_cpu_control.md
R223, R224: the spec's decisions D9, D14, D15). -/
def Obligations.NopAndHltAdvancePc : Prop :=
  (∀ s : State, ∃ t, exec .nop s = .next t ∧ t.pc = s.pc + 1 ∧ t.intInhibit = false ∧
    OnlyRegs s t []) ∧
  (∀ s : State, ∃ t, exec .hlt s = .next t ∧ t.pc = s.pc + 1 ∧ t.intInhibit = false ∧
    t.halted = true ∧ OnlyRegs { s with halted := true } t [])

/-- DI clears IFF, EI sets it, both set int_inhibit; nothing else but pc changes (44_cpu_control.md R225,
R226: int_inhibit by the spec's decision D14). -/
def Obligations.DiAndEiWriteIffAndInhibit : Prop :=
  (∀ s : State, ∃ t, exec .di s = .next t ∧ t.iff = false ∧ t.intInhibit = true ∧
    t.pc = s.pc + 1 ∧ OnlyRegs { s with iff := false } t []) ∧
  (∀ s : State, ∃ t, exec .ei s = .next t ∧ t.iff = true ∧ t.intInhibit = true ∧
    t.pc = s.pc + 1 ∧ OnlyRegs { s with iff := true } t [])

/-! ## Jumps, calls, returns -/

/-- 45_jump.md R231, R240: JMP goes to `nn`, PCHL to HL (memory is not read); nothing else changes but
int_inhibit. -/
def Obligations.JmpAndPchlAssignPc : Prop :=
  HasColumns .pchl [0xE9] 1 4 ∧
  (∀ (nn : Word) (s : State), ∃ t, exec (.jmp nn) s = .next t ∧ t.pc = nn ∧ OnlyRegs s t []) ∧
  (∀ s : State, ∃ t, exec .pchl s = .next t ∧ t.pc = join s.h s.l ∧ OnlyRegs s t [])

/-- The eight conditional jumps: to `nn` when the condition is true, else to the following instruction;
nothing else changes but int_inhibit (45_jump.md R232 to R239; conditions by the spec's decision
D8). -/
def Obligations.ConditionalJumpsTestTheirFlag : Prop :=
  ∀ (k : Cond) (nn : Word) (s : State), ∃ t, exec (condJump k nn) s = .next t ∧
    (CondTrue k s.flags → t.pc = nn) ∧ (¬ CondTrue k s.flags → t.pc = s.pc + 3) ∧
    OnlyRegs s t []

/-- What a taken call does: the return address pushed high byte first, SP two lower, pc at the target
(46_call_return.md R250). -/
def Calls (s t : State) (ret target : Word) : Prop :=
  t.pc = target ∧ t.sp = s.sp - 2 ∧
  StoresTwoBytes s t (s.sp - 1) (hi ret) (s.sp - 2) (lo ret) ∧ Untouched s t [] ∧
  t.flags = s.flags

/-- CALL pushes the address after its three bytes; RST i pushes the address after its one byte and goes
to `8 * i` (46_call_return.md R251, R277; the pushed address by the spec's decision D9). -/
def Obligations.CallAndRstPushReturnAddress : Prop :=
  (∀ (nn : Word) (s : State), ∃ t, exec (.call nn) s = .next t ∧ Calls s t (s.pc + 3) nn) ∧
  (∀ (i : Nat) (s : State), ∃ t, exec (.rst i) s = .next t ∧
    Calls s t (s.pc + 1) (BitVec.ofNat 16 (8 * i)))

/-- The eight conditional calls: a call when the condition is true, else only pc (and int_inhibit)
changes (46_call_return.md R252 to R259, 90_conflicts.md C2; D8, D9). -/
def Obligations.ConditionalCallsTestTheirFlag : Prop :=
  ∀ (k : Cond) (nn : Word) (s : State), ∃ t, exec (condCall k nn) s = .next t ∧
    (CondTrue k s.flags → Calls s t (s.pc + 3) nn) ∧
    (¬ CondTrue k s.flags → t.pc = s.pc + 3 ∧ OnlyRegs s t [])

/-- What a taken return does: pc from the two bytes at SP, low byte first, SP two higher; IFF and memory
stay (46_call_return.md R250, R260). -/
def Returns (s t : State) : Prop :=
  t.pc = join (s.memRead (s.sp + 1)) (s.memRead s.sp) ∧ t.sp = s.sp + 2 ∧ Untouched s t [] ∧
  t.flags = s.flags ∧ KeepsMemory s t

/-- 46_call_return.md R260: RET loads pc from the stack (wrap of SP: the spec's decision D10). -/
def Obligations.RetLoadsPcFromStack : Prop :=
  ∀ s : State, ∃ t, exec .ret s = .next t ∧ Returns s t

/-- The eight conditional returns: a return when the condition is true, else only pc (and int_inhibit)
changes (46_call_return.md R261 to R268; D8, D9). -/
def Obligations.ConditionalReturnsTestTheirFlag : Prop :=
  ∀ (k : Cond) (s : State), ∃ t, exec (condReturn k) s = .next t ∧
    (CondTrue k s.flags → Returns s t) ∧
    (¬ CondTrue k s.flags → t.pc = s.pc + 1 ∧ OnlyRegs s t [])

/-- A RET undoes an interrupt acceptance's or a CALL's push: from any later state with SP back where it
was left and the two stack bytes, in RAM, undisturbed, pc and SP are those of the interrupted or
calling program (46_call_return.md R250, 60_exceptions.md R311; D9, D13). -/
def Obligations.RetReturnsToCallerAndInterruptedProgram : Prop :=
  (∀ (nn : Word) (s t u v : State), exec (.call nn) s = .next t →
    s.kindAt (s.sp - 1) = .ram → s.kindAt (s.sp - 2) = .ram → u.sp = t.sp → u.memMap = t.memMap →
    u.byteAt (s.sp - 1) = t.byteAt (s.sp - 1) → u.byteAt (s.sp - 2) = t.byteAt (s.sp - 2) →
    exec .ret u = .next v → v.pc = s.pc + 3 ∧ v.sp = s.sp) ∧
  (∀ (i : Fin 8) (s t u v : State), s.presented = .request i → s.iff = true →
    s.intInhibit = false → step s = .next t →
    s.kindAt (s.sp - 1) = .ram → s.kindAt (s.sp - 2) = .ram → u.sp = t.sp → u.memMap = t.memMap →
    u.byteAt (s.sp - 1) = t.byteAt (s.sp - 1) → u.byteAt (s.sp - 2) = t.byteAt (s.sp - 2) →
    exec .ret u = .next v → v.pc = s.pc ∧ v.sp = s.sp)

/-! ## Rotates, input and output -/

/-- The four rotates of A, bit by bit, and the bit C takes; S, Z, H, P stay (47_rotate.md R281 to R284:
the spec's decision D6). -/
def Obligations.RotatesMoveEveryBit : Prop :=
  (∀ s : State, ∃ t, exec .rlc s = .next t ∧ t.a = s.a.rotateLeft 1 ∧
    t.flags = { s.flags with c := s.a.getLsbD 7 } ∧ OnlyRegsAndFlags s t [.a]) ∧
  (∀ s : State, ∃ t, exec .rrc s = .next t ∧ t.a = s.a.rotateRight 1 ∧
    t.flags = { s.flags with c := s.a.getLsbD 0 } ∧ OnlyRegsAndFlags s t [.a]) ∧
  (∀ s : State, ∃ t, exec .ral s = .next t ∧
    (∀ k, k < 7 → t.a.getLsbD (k + 1) = s.a.getLsbD k) ∧ t.a.getLsbD 0 = s.flags.c ∧
    t.flags = { s.flags with c := s.a.getLsbD 7 } ∧ OnlyRegsAndFlags s t [.a]) ∧
  (∀ s : State, ∃ t, exec .rar s = .next t ∧
    (∀ k, k < 7 → t.a.getLsbD k = s.a.getLsbD (k + 1)) ∧ t.a.getLsbD 7 = s.flags.c ∧
    t.flags = { s.flags with c := s.a.getLsbD 0 } ∧ OnlyRegsAndFlags s t [.a])

/-- IN takes the environment's next answer into A and records it; OUT records port and A; no flag or
memory byte changes (48_io.md R291, R292; the environment by the spec's decision D17; log 8). -/
def Obligations.InAndOutExchangeTheAccumulator : Prop :=
  (∀ (n : Byte) (s : State), ∃ t, exec (.inPort n) s = .next t ∧
    (∀ v rest, s.ioAnswers = v :: rest → t.a = v ∧ t.ioAnswers = rest) ∧
    (s.ioAnswers = [] → t.ioAnswers = []) ∧
    t.history = s.history ++ [IoEvent.read n t.a] ∧
    Untouched { s with ioAnswers := t.ioAnswers, history := t.history } t [.a] ∧
    t.sp = s.sp ∧ t.flags = s.flags ∧ KeepsMemory s t) ∧
  (∀ (n : Byte) (s : State), ∃ t, exec (.outPort n) s = .next t ∧
    t.history = s.history ++ [IoEvent.write n s.a] ∧
    Untouched { s with history := t.history } t [] ∧
    t.sp = s.sp ∧ t.flags = s.flags ∧ KeepsMemory s t)
end

