-- ==== Sys2Proof/Laws/Flags.lean ====
section
/-! SUPPORT. What the flag helpers compute, once: the specs of ADD8, SUB8, SZP, the Flags byte and the
decimal adjust, for later proofs to cite. -/

namespace Sys2Proof.Machine

open Sys2Proof.Config (SubH)

variable (f : Flags) (v : Byte) (o : AluOut)

@[simp] theorem Flags.szp_s : (f.szp v).s = v.getLsbD 7 := rfl
@[simp] theorem Flags.szp_z : (f.szp v).z = decide (v = 0x00#8) := rfl
@[simp] theorem Flags.szp_h : (f.szp v).h = f.h := rfl
@[simp] theorem Flags.szp_p : (f.szp v).p = parity8 v := rfl
@[simp] theorem Flags.szp_c : (f.szp v).c = f.c := rfl

@[simp] theorem Flags.ofAlu_s : (f.ofAlu o).s = o.res.getLsbD 7 := rfl
@[simp] theorem Flags.ofAlu_z : (f.ofAlu o).z = decide (o.res = 0x00#8) := rfl
@[simp] theorem Flags.ofAlu_h : (f.ofAlu o).h = o.half := rfl
@[simp] theorem Flags.ofAlu_p : (f.ofAlu o).p = parity8 o.res := rfl
@[simp] theorem Flags.ofAlu_c : (f.ofAlu o).c = o.carry := rfl

@[simp] theorem Flags.ofStep_s : (f.ofStep o).s = o.res.getLsbD 7 := rfl
@[simp] theorem Flags.ofStep_z : (f.ofStep o).z = decide (o.res = 0x00#8) := rfl
@[simp] theorem Flags.ofStep_h : (f.ofStep o).h = o.half := rfl
@[simp] theorem Flags.ofStep_p : (f.ofStep o).p = parity8 o.res := rfl
@[simp] theorem Flags.ofStep_c : (f.ofStep o).c = f.c := rfl

@[simp] theorem Flags.ofLogic_s : (f.ofLogic v).s = v.getLsbD 7 := rfl
@[simp] theorem Flags.ofLogic_z : (f.ofLogic v).z = decide (v = 0x00#8) := rfl
@[simp] theorem Flags.ofLogic_h : (f.ofLogic v).h = f.h := rfl
@[simp] theorem Flags.ofLogic_p : (f.ofLogic v).p = parity8 v := rfl
@[simp] theorem Flags.ofLogic_c : (f.ofLogic v).c = false := rfl

/-- Bit 7 is set exactly in the upper half of the range. -/
theorem getLsbD_seven (v : Byte) : v.getLsbD 7 = decide (128 ≤ v.toNat) := by
  have h := BitVec.msb_eq_decide v
  simpa [BitVec.msb_eq_getLsbD_last] using h

/-- `ADD8` in exact arithmetic (00_scope.md R11). -/
theorem add8_spec (a b : Byte) (cin : Bool) :
    (add8 a b cin).res.toNat = (a.toNat + b.toNat + cin.toNat) % 256 ∧
    (add8 a b cin).carry = decide (255 < a.toNat + b.toNat + cin.toNat) ∧
    (add8 a b cin).half = decide (15 < a.toNat % 16 + b.toNat % 16 + cin.toNat) := by
  simp [add8]

/-- `SUB8` in exact arithmetic (R12): the result and the borrow do not depend on `SUB_H`. -/
theorem sub8_spec (k : SubH) (a b : Byte) (bin : Bool) :
    (sub8 k a b bin).res.toNat = (256 + a.toNat - (b.toNat + bin.toNat)) % 256 ∧
    (sub8 k a b bin).carry = decide (a.toNat < b.toNat + bin.toNat) ∧
    (sub8 k a b bin).half =
      (match k with
      | .borrow => decide (a.toNat % 16 < b.toNat % 16 + bin.toNat)
      | .carry => !decide (a.toNat % 16 < b.toNat % 16 + bin.toNat)) := by
  have ha := a.isLt
  have hb := b.isLt
  have hc : bin.toNat ≤ 1 := Bool.toNat_le bin
  refine ⟨?_, ?_, ?_⟩
  · simp only [sub8, BitVec.toNat_ofInt]
    omega
  · simp only [sub8, decide_eq_decide]; omega
  · cases k <;> simp only [sub8] <;> [skip; congr 1] <;> simp only [decide_eq_decide] <;> omega

/-- The two candidates for `SUB_H` give complementary half carries (R12). -/
theorem sub8_half_complement (a b : Byte) (bin : Bool) :
    (sub8 .carry a b bin).half = !(sub8 .borrow a b bin).half := rfl

/-- The Flags byte brings every flag back, whatever the fill bits are (10_state.md R28). -/
@[simp] theorem Flags.ofByte_toByte (f : Flags) (fill : BitVec 3) : Flags.ofByte (f.toByte fill) = f := by
  obtain ⟨s, z, h, p, c⟩ := f
  revert fill
  cases s <;> cases z <;> cases h <;> cases p <;> cases c <;> decide

/-- The decimal adjust (42_alu8.md R186) in exact arithmetic: the two corrections, the sum, H and C. -/
theorem daa8_spec (acc : Byte) (f : Flags) : ∃ low high : Nat,
    ((f.h = true ∨ 9 < acc.toNat % 16) → low = 6) ∧
    (¬ (f.h = true ∨ 9 < acc.toNat % 16) → low = 0) ∧
    ((f.c = true ∨ 9 < acc.toNat / 16 ∨ (acc.toNat / 16 = 9 ∧ 9 < acc.toNat % 16)) → high = 96) ∧
    (¬ (f.c = true ∨ 9 < acc.toNat / 16 ∨ (acc.toNat / 16 = 9 ∧ 9 < acc.toNat % 16)) → high = 0) ∧
    (daa8 acc f).res.toNat = (acc.toNat + low + high) % 256 ∧
    ((daa8 acc f).half = true ↔ 15 < acc.toNat % 16 + low) ∧
    ((daa8 acc f).carry = true ↔ f.c = true ∨ high = 96) := by
  have hacc := acc.isLt
  by_cases hl : f.h = true ∨ 9 < acc.toNat % 16 <;>
    by_cases hh : f.c = true ∨ 9 < acc.toNat / 16 ∨ (acc.toNat / 16 = 9 ∧ 9 < acc.toNat % 16)
  · refine ⟨6, 96, fun _ => rfl, fun h => absurd hl h, fun _ => rfl, fun h => absurd hh h, ?_, ?_, ?_⟩
      <;> simp [daa8, daaCorrection, hl, hh, or_assoc]
  · refine ⟨6, 0, fun _ => rfl, fun h => absurd hl h, fun h => absurd h hh, fun _ => rfl, ?_, ?_, ?_⟩
      <;> simp [daa8, daaCorrection, hl, hh, or_assoc]
  · refine ⟨0, 96, fun h => absurd h hl, fun _ => rfl, fun _ => rfl, fun h => absurd hh h, ?_, ?_, ?_⟩
      <;> simp [daa8, daaCorrection, hl, hh, or_assoc]
  · refine ⟨0, 0, fun h => absurd h hl, fun _ => rfl, fun h => absurd h hh, fun _ => rfl, ?_, ?_, ?_⟩
      <;> simp [daa8, daaCorrection, hl, hh, or_assoc]
    omega

end Sys2Proof.Machine
end

