-- ==== Sys2Proof/Laws/Memory.lean ====
section
/-! SUPPORT. The laws of the byte store: a load after a store, and the canonical form. -/

namespace Sys2Proof.Machine

theorem Memory.load_erase_same (m : Memory) (x : Nat) :
    Memory.load (Memory.erase m x) x = Config.unlistedByte := by
  induction m with
  | nil => rfl
  | cons kv m ih =>
    obtain ⟨k, v⟩ := kv
    by_cases hk : k = x <;> simp [Memory.erase, Memory.load, hk, ih]

theorem Memory.load_erase_other (m : Memory) {x y : Nat} (h : y ≠ x) :
    Memory.load (Memory.erase m x) y = Memory.load m y := by
  induction m with
  | nil => rfl
  | cons kv m ih =>
    obtain ⟨k, v⟩ := kv
    by_cases hk : k = x
    · subst hk; simp [Memory.erase, Memory.load, ih, Ne.symm h]
    · simp [Memory.erase, Memory.load, hk, ih]

theorem Memory.load_insert_other (m : Memory) {x y : Nat} (v : Byte) (h : y ≠ x) :
    Memory.load (Memory.insert m x v) y = Memory.load m y := by
  induction m with
  | nil => simp [Memory.insert, Memory.load, Ne.symm h]
  | cons kv m ih =>
    obtain ⟨k, w⟩ := kv
    by_cases hx : x < k <;> simp [Memory.insert, Memory.load, hx, ih, Ne.symm h]

/-- No entry for an address. -/
def Memory.absent (m : Memory) (x : Nat) : Prop := ∀ kv ∈ m, kv.1 ≠ x

theorem Memory.absent_erase (m : Memory) (x : Nat) : Memory.absent (Memory.erase m x) x := by
  induction m with
  | nil => simp [Memory.erase, Memory.absent]
  | cons kv m ih =>
    obtain ⟨k, v⟩ := kv
    by_cases hk : k = x
    · simpa [Memory.erase, hk] using ih
    · simp only [Memory.erase, hk, if_false]
      intro p hp
      rcases List.mem_cons.mp hp with rfl | hp
      · exact hk
      · exact ih p hp

theorem Memory.load_insert_same (m : Memory) (x : Nat) (v : Byte) (h : Memory.absent m x) :
    Memory.load (Memory.insert m x v) x = v := by
  induction m with
  | nil => simp [Memory.insert, Memory.load]
  | cons kv m ih =>
    obtain ⟨k, w⟩ := kv
    have hk : k ≠ x := h (k, w) (by simp)
    have hm : Memory.absent m x := fun p hp => h p (List.mem_cons_of_mem _ hp)
    by_cases hx : x < k <;> simp [Memory.insert, Memory.load, hx, hk, ih hm]

/-- A load after a store to the same address gives the stored byte. -/
@[simp] theorem Memory.load_store_same (m : Memory) (x : Nat) (v : Byte) :
    Memory.load (Memory.store m x v) x = v := by
  unfold Memory.store
  split
  · rename_i h; rw [h, Memory.load_erase_same]
  · exact Memory.load_insert_same _ _ _ (Memory.absent_erase m x)

/-- A store leaves every other address alone. -/
theorem Memory.load_store_other (m : Memory) {x y : Nat} (v : Byte) (h : y ≠ x) :
    Memory.load (Memory.store m x v) y = Memory.load m y := by
  unfold Memory.store
  split
  · exact Memory.load_erase_other m h
  · rw [Memory.load_insert_other _ v h, Memory.load_erase_other m h]

theorem Memory.wfFrom_mono {low low' : Nat} (m : Memory) (h : low' ≤ low)
    (hm : Memory.wfFrom low m = true) : Memory.wfFrom low' m = true := by
  cases m with
  | nil => rfl
  | cons kv m =>
    obtain ⟨k, v⟩ := kv
    simp only [Memory.wfFrom, Bool.and_eq_true, decide_eq_true_eq] at hm ⊢
    exact ⟨⟨⟨by omega, hm.1.1.2⟩, hm.1.2⟩, hm.2⟩

theorem Memory.wfFrom_erase (m : Memory) (low x : Nat) (hm : Memory.wfFrom low m = true) :
    Memory.wfFrom low (Memory.erase m x) = true := by
  induction m generalizing low with
  | nil => rfl
  | cons kv m ih =>
    obtain ⟨k, v⟩ := kv
    simp only [Memory.wfFrom, Bool.and_eq_true, decide_eq_true_eq] at hm
    have hrest := ih (k + 1) hm.2
    by_cases hk : k = x
    · simp only [Memory.erase, hk, if_true]
      exact Memory.wfFrom_mono _ (by omega) hrest
    · simp only [Memory.erase, hk, if_false, Memory.wfFrom, Bool.and_eq_true, decide_eq_true_eq]
      exact ⟨hm.1, hrest⟩

theorem Memory.wfFrom_insert (m : Memory) (low x : Nat) (v : Byte) (hm : Memory.wfFrom low m = true)
    (ha : Memory.absent m x) (hl : low ≤ x) (hx : x < 65536) (hv : v ≠ Config.unlistedByte) :
    Memory.wfFrom low (Memory.insert m x v) = true := by
  induction m generalizing low with
  | nil => simp [Memory.insert, Memory.wfFrom, hl, hx, hv]
  | cons kv m ih =>
    obtain ⟨k, w⟩ := kv
    simp only [Memory.wfFrom, Bool.and_eq_true, decide_eq_true_eq] at hm
    have hk : k ≠ x := ha (k, w) (by simp)
    by_cases hlt : x < k
    · simp only [Memory.insert, hlt, if_true, Memory.wfFrom, Bool.and_eq_true, decide_eq_true_eq]
      exact ⟨⟨⟨hl, hx⟩, hv⟩, ⟨⟨⟨by omega, hm.1.1.2⟩, hm.1.2⟩, hm.2⟩⟩
    · simp only [Memory.insert, hlt, if_false, Memory.wfFrom, Bool.and_eq_true, decide_eq_true_eq]
      exact ⟨hm.1, ih (k + 1) hm.2 (fun p hp => ha p (List.mem_cons_of_mem _ hp)) (by omega)⟩

/-- A store inside the address space keeps the canonical form. -/
theorem Memory.wf_store (m : Memory) (x : Nat) (v : Byte) (hm : Memory.wf m = true)
    (hx : x < 65536) : Memory.wf (Memory.store m x v) = true := by
  unfold Memory.store
  split
  · exact Memory.wfFrom_erase m 0 x hm
  · rename_i hv
    exact Memory.wfFrom_insert _ 0 x v (Memory.wfFrom_erase m 0 x hm) (Memory.absent_erase m x)
      (by omega) hx hv

/-- Nothing below the lower bound is listed. -/
theorem Memory.load_below (m : Memory) (low x : Nat) (hm : Memory.wfFrom low m = true)
    (hx : x < low) : Memory.load m x = Config.unlistedByte := by
  induction m generalizing low with
  | nil => rfl
  | cons kv m ih =>
    obtain ⟨k, v⟩ := kv
    simp only [Memory.wfFrom, Bool.and_eq_true, decide_eq_true_eq] at hm
    have hk : k ≠ x := by omega
    simp only [Memory.load, hk, if_false]
    exact ih (k + 1) hm.2 (by omega)

/-- Two memories in canonical form that read the same everywhere are the same data. -/
theorem Memory.ext_of_load (m n : Memory) (low : Nat) (hm : Memory.wfFrom low m = true)
    (hn : Memory.wfFrom low n = true) (h : ∀ x, Memory.load m x = Memory.load n x) : m = n := by
  induction m generalizing low n with
  | nil =>
    cases n with
    | nil => rfl
    | cons kv n =>
      obtain ⟨k, v⟩ := kv
      simp only [Memory.wfFrom, Bool.and_eq_true, decide_eq_true_eq] at hn
      have := h k
      simp only [Memory.load, if_true] at this
      exact absurd this.symm hn.1.2
  | cons kv m ih =>
    obtain ⟨k, v⟩ := kv
    simp only [Memory.wfFrom, Bool.and_eq_true, decide_eq_true_eq] at hm
    cases n with
    | nil =>
      have := h k
      simp only [Memory.load, if_true] at this
      exact absurd this hm.1.2
    | cons kv' n =>
      obtain ⟨k', v'⟩ := kv'
      simp only [Memory.wfFrom, Bool.and_eq_true, decide_eq_true_eq] at hn
      have hkk : k = k' := by
        rcases Nat.lt_trichotomy k k' with hlt | heq | hgt
        · have e := h k
          have hne : k' ≠ k := by omega
          simp only [Memory.load, if_true, hne, if_false] at e
          rw [Memory.load_below n (k' + 1) k hn.2 (by omega)] at e
          exact absurd e hm.1.2
        · exact heq
        · have e := h k'
          have hne : k ≠ k' := by omega
          simp only [Memory.load, if_true, hne, if_false] at e
          rw [Memory.load_below m (k + 1) k' hm.2 (by omega)] at e
          exact absurd e.symm hn.1.2
      subst hkk
      have hv : v = v' := by simpa [Memory.load] using h k
      subst hv
      congr 1
      refine ih n (k + 1) hm.2 hn.2 fun x => ?_
      by_cases hx : k = x
      · subst hx
        rw [Memory.load_below m (k + 1) k hm.2 (by omega),
          Memory.load_below n (k + 1) k hn.2 (by omega)]
      · simpa [Memory.load, hx] using h x

end Sys2Proof.Machine
end

