-- ==== Sys2Proof/Laws/State.lean ====
section
/-! SUPPORT. One lemma per field per update of the state, so that no proof unfolds an update. -/

namespace Sys2Proof.Machine

variable (s : State)

-- setBC
@[simp] theorem State.setBC_a (v : Word) : (s.setBC v).a = s.a := rfl
@[simp] theorem State.setBC_b (v : Word) : (s.setBC v).b = hi v := rfl
@[simp] theorem State.setBC_c (v : Word) : (s.setBC v).c = lo v := rfl
@[simp] theorem State.setBC_d (v : Word) : (s.setBC v).d = s.d := rfl
@[simp] theorem State.setBC_e (v : Word) : (s.setBC v).e = s.e := rfl
@[simp] theorem State.setBC_h (v : Word) : (s.setBC v).h = s.h := rfl
@[simp] theorem State.setBC_l (v : Word) : (s.setBC v).l = s.l := rfl
@[simp] theorem State.setBC_sp (v : Word) : (s.setBC v).sp = s.sp := rfl
@[simp] theorem State.setBC_pc (v : Word) : (s.setBC v).pc = s.pc := rfl
@[simp] theorem State.setBC_flags (v : Word) : (s.setBC v).flags = s.flags := rfl
@[simp] theorem State.setBC_iff (v : Word) : (s.setBC v).iff = s.iff := rfl
@[simp] theorem State.setBC_halted (v : Word) : (s.setBC v).halted = s.halted := rfl
@[simp] theorem State.setBC_intInhibit (v : Word) : (s.setBC v).intInhibit = s.intInhibit := rfl
@[simp] theorem State.setBC_mem (v : Word) : (s.setBC v).mem = s.mem := rfl
@[simp] theorem State.setBC_memMap (v : Word) : (s.setBC v).memMap = s.memMap := rfl
@[simp] theorem State.setBC_ioAnswers (v : Word) : (s.setBC v).ioAnswers = s.ioAnswers := rfl
@[simp] theorem State.setBC_history (v : Word) : (s.setBC v).history = s.history := rfl
@[simp] theorem State.setBC_events (v : Word) : (s.setBC v).events = s.events := rfl
@[simp] theorem State.setBC_drawIndex (v : Word) : (s.setBC v).drawIndex = s.drawIndex := rfl

-- setDE
@[simp] theorem State.setDE_a (v : Word) : (s.setDE v).a = s.a := rfl
@[simp] theorem State.setDE_b (v : Word) : (s.setDE v).b = s.b := rfl
@[simp] theorem State.setDE_c (v : Word) : (s.setDE v).c = s.c := rfl
@[simp] theorem State.setDE_d (v : Word) : (s.setDE v).d = hi v := rfl
@[simp] theorem State.setDE_e (v : Word) : (s.setDE v).e = lo v := rfl
@[simp] theorem State.setDE_h (v : Word) : (s.setDE v).h = s.h := rfl
@[simp] theorem State.setDE_l (v : Word) : (s.setDE v).l = s.l := rfl
@[simp] theorem State.setDE_sp (v : Word) : (s.setDE v).sp = s.sp := rfl
@[simp] theorem State.setDE_pc (v : Word) : (s.setDE v).pc = s.pc := rfl
@[simp] theorem State.setDE_flags (v : Word) : (s.setDE v).flags = s.flags := rfl
@[simp] theorem State.setDE_iff (v : Word) : (s.setDE v).iff = s.iff := rfl
@[simp] theorem State.setDE_halted (v : Word) : (s.setDE v).halted = s.halted := rfl
@[simp] theorem State.setDE_intInhibit (v : Word) : (s.setDE v).intInhibit = s.intInhibit := rfl
@[simp] theorem State.setDE_mem (v : Word) : (s.setDE v).mem = s.mem := rfl
@[simp] theorem State.setDE_memMap (v : Word) : (s.setDE v).memMap = s.memMap := rfl
@[simp] theorem State.setDE_ioAnswers (v : Word) : (s.setDE v).ioAnswers = s.ioAnswers := rfl
@[simp] theorem State.setDE_history (v : Word) : (s.setDE v).history = s.history := rfl
@[simp] theorem State.setDE_events (v : Word) : (s.setDE v).events = s.events := rfl
@[simp] theorem State.setDE_drawIndex (v : Word) : (s.setDE v).drawIndex = s.drawIndex := rfl

-- setHL
@[simp] theorem State.setHL_a (v : Word) : (s.setHL v).a = s.a := rfl
@[simp] theorem State.setHL_b (v : Word) : (s.setHL v).b = s.b := rfl
@[simp] theorem State.setHL_c (v : Word) : (s.setHL v).c = s.c := rfl
@[simp] theorem State.setHL_d (v : Word) : (s.setHL v).d = s.d := rfl
@[simp] theorem State.setHL_e (v : Word) : (s.setHL v).e = s.e := rfl
@[simp] theorem State.setHL_h (v : Word) : (s.setHL v).h = hi v := rfl
@[simp] theorem State.setHL_l (v : Word) : (s.setHL v).l = lo v := rfl
@[simp] theorem State.setHL_sp (v : Word) : (s.setHL v).sp = s.sp := rfl
@[simp] theorem State.setHL_pc (v : Word) : (s.setHL v).pc = s.pc := rfl
@[simp] theorem State.setHL_flags (v : Word) : (s.setHL v).flags = s.flags := rfl
@[simp] theorem State.setHL_iff (v : Word) : (s.setHL v).iff = s.iff := rfl
@[simp] theorem State.setHL_halted (v : Word) : (s.setHL v).halted = s.halted := rfl
@[simp] theorem State.setHL_intInhibit (v : Word) : (s.setHL v).intInhibit = s.intInhibit := rfl
@[simp] theorem State.setHL_mem (v : Word) : (s.setHL v).mem = s.mem := rfl
@[simp] theorem State.setHL_memMap (v : Word) : (s.setHL v).memMap = s.memMap := rfl
@[simp] theorem State.setHL_ioAnswers (v : Word) : (s.setHL v).ioAnswers = s.ioAnswers := rfl
@[simp] theorem State.setHL_history (v : Word) : (s.setHL v).history = s.history := rfl
@[simp] theorem State.setHL_events (v : Word) : (s.setHL v).events = s.events := rfl
@[simp] theorem State.setHL_drawIndex (v : Word) : (s.setHL v).drawIndex = s.drawIndex := rfl

-- setSP
@[simp] theorem State.setSP_a (v : Word) : (s.setSP v).a = s.a := rfl
@[simp] theorem State.setSP_b (v : Word) : (s.setSP v).b = s.b := rfl
@[simp] theorem State.setSP_c (v : Word) : (s.setSP v).c = s.c := rfl
@[simp] theorem State.setSP_d (v : Word) : (s.setSP v).d = s.d := rfl
@[simp] theorem State.setSP_e (v : Word) : (s.setSP v).e = s.e := rfl
@[simp] theorem State.setSP_h (v : Word) : (s.setSP v).h = s.h := rfl
@[simp] theorem State.setSP_l (v : Word) : (s.setSP v).l = s.l := rfl
@[simp] theorem State.setSP_sp (v : Word) : (s.setSP v).sp = v := rfl
@[simp] theorem State.setSP_pc (v : Word) : (s.setSP v).pc = s.pc := rfl
@[simp] theorem State.setSP_flags (v : Word) : (s.setSP v).flags = s.flags := rfl
@[simp] theorem State.setSP_iff (v : Word) : (s.setSP v).iff = s.iff := rfl
@[simp] theorem State.setSP_halted (v : Word) : (s.setSP v).halted = s.halted := rfl
@[simp] theorem State.setSP_intInhibit (v : Word) : (s.setSP v).intInhibit = s.intInhibit := rfl
@[simp] theorem State.setSP_mem (v : Word) : (s.setSP v).mem = s.mem := rfl
@[simp] theorem State.setSP_memMap (v : Word) : (s.setSP v).memMap = s.memMap := rfl
@[simp] theorem State.setSP_ioAnswers (v : Word) : (s.setSP v).ioAnswers = s.ioAnswers := rfl
@[simp] theorem State.setSP_history (v : Word) : (s.setSP v).history = s.history := rfl
@[simp] theorem State.setSP_events (v : Word) : (s.setSP v).events = s.events := rfl
@[simp] theorem State.setSP_drawIndex (v : Word) : (s.setSP v).drawIndex = s.drawIndex := rfl

-- setAcc
@[simp] theorem State.setAcc_a (v : Byte) (f : Flags) : (s.setAcc v f).a = v := rfl
@[simp] theorem State.setAcc_b (v : Byte) (f : Flags) : (s.setAcc v f).b = s.b := rfl
@[simp] theorem State.setAcc_c (v : Byte) (f : Flags) : (s.setAcc v f).c = s.c := rfl
@[simp] theorem State.setAcc_d (v : Byte) (f : Flags) : (s.setAcc v f).d = s.d := rfl
@[simp] theorem State.setAcc_e (v : Byte) (f : Flags) : (s.setAcc v f).e = s.e := rfl
@[simp] theorem State.setAcc_h (v : Byte) (f : Flags) : (s.setAcc v f).h = s.h := rfl
@[simp] theorem State.setAcc_l (v : Byte) (f : Flags) : (s.setAcc v f).l = s.l := rfl
@[simp] theorem State.setAcc_sp (v : Byte) (f : Flags) : (s.setAcc v f).sp = s.sp := rfl
@[simp] theorem State.setAcc_pc (v : Byte) (f : Flags) : (s.setAcc v f).pc = s.pc := rfl
@[simp] theorem State.setAcc_flags (v : Byte) (f : Flags) : (s.setAcc v f).flags = f := rfl
@[simp] theorem State.setAcc_iff (v : Byte) (f : Flags) : (s.setAcc v f).iff = s.iff := rfl
@[simp] theorem State.setAcc_halted (v : Byte) (f : Flags) : (s.setAcc v f).halted = s.halted := rfl
@[simp] theorem State.setAcc_intInhibit (v : Byte) (f : Flags) : (s.setAcc v f).intInhibit = s.intInhibit :=
  rfl
@[simp] theorem State.setAcc_mem (v : Byte) (f : Flags) : (s.setAcc v f).mem = s.mem := rfl
@[simp] theorem State.setAcc_memMap (v : Byte) (f : Flags) : (s.setAcc v f).memMap = s.memMap := rfl
@[simp] theorem State.setAcc_ioAnswers (v : Byte) (f : Flags) : (s.setAcc v f).ioAnswers = s.ioAnswers :=
  rfl
@[simp] theorem State.setAcc_history (v : Byte) (f : Flags) : (s.setAcc v f).history = s.history :=
  rfl
@[simp] theorem State.setAcc_events (v : Byte) (f : Flags) : (s.setAcc v f).events = s.events := rfl
@[simp] theorem State.setAcc_drawIndex (v : Byte) (f : Flags) : (s.setAcc v f).drawIndex = s.drawIndex :=
  rfl

-- setFlags
@[simp] theorem State.setFlags_a (f : Flags) : (s.setFlags f).a = s.a := rfl
@[simp] theorem State.setFlags_b (f : Flags) : (s.setFlags f).b = s.b := rfl
@[simp] theorem State.setFlags_c (f : Flags) : (s.setFlags f).c = s.c := rfl
@[simp] theorem State.setFlags_d (f : Flags) : (s.setFlags f).d = s.d := rfl
@[simp] theorem State.setFlags_e (f : Flags) : (s.setFlags f).e = s.e := rfl
@[simp] theorem State.setFlags_h (f : Flags) : (s.setFlags f).h = s.h := rfl
@[simp] theorem State.setFlags_l (f : Flags) : (s.setFlags f).l = s.l := rfl
@[simp] theorem State.setFlags_sp (f : Flags) : (s.setFlags f).sp = s.sp := rfl
@[simp] theorem State.setFlags_pc (f : Flags) : (s.setFlags f).pc = s.pc := rfl
@[simp] theorem State.setFlags_flags (f : Flags) : (s.setFlags f).flags = f := rfl
@[simp] theorem State.setFlags_iff (f : Flags) : (s.setFlags f).iff = s.iff := rfl
@[simp] theorem State.setFlags_halted (f : Flags) : (s.setFlags f).halted = s.halted := rfl
@[simp] theorem State.setFlags_intInhibit (f : Flags) : (s.setFlags f).intInhibit = s.intInhibit :=
  rfl
@[simp] theorem State.setFlags_mem (f : Flags) : (s.setFlags f).mem = s.mem := rfl
@[simp] theorem State.setFlags_memMap (f : Flags) : (s.setFlags f).memMap = s.memMap := rfl
@[simp] theorem State.setFlags_ioAnswers (f : Flags) : (s.setFlags f).ioAnswers = s.ioAnswers := rfl
@[simp] theorem State.setFlags_history (f : Flags) : (s.setFlags f).history = s.history := rfl
@[simp] theorem State.setFlags_events (f : Flags) : (s.setFlags f).events = s.events := rfl
@[simp] theorem State.setFlags_drawIndex (f : Flags) : (s.setFlags f).drawIndex = s.drawIndex := rfl

-- setCarry
@[simp] theorem State.setCarry_a (v : Bool) : (s.setCarry v).a = s.a := rfl
@[simp] theorem State.setCarry_b (v : Bool) : (s.setCarry v).b = s.b := rfl
@[simp] theorem State.setCarry_c (v : Bool) : (s.setCarry v).c = s.c := rfl
@[simp] theorem State.setCarry_d (v : Bool) : (s.setCarry v).d = s.d := rfl
@[simp] theorem State.setCarry_e (v : Bool) : (s.setCarry v).e = s.e := rfl
@[simp] theorem State.setCarry_h (v : Bool) : (s.setCarry v).h = s.h := rfl
@[simp] theorem State.setCarry_l (v : Bool) : (s.setCarry v).l = s.l := rfl
@[simp] theorem State.setCarry_sp (v : Bool) : (s.setCarry v).sp = s.sp := rfl
@[simp] theorem State.setCarry_pc (v : Bool) : (s.setCarry v).pc = s.pc := rfl
@[simp] theorem State.setCarry_flags (v : Bool) : (s.setCarry v).flags = { s.flags with c := v } :=
  rfl
@[simp] theorem State.setCarry_iff (v : Bool) : (s.setCarry v).iff = s.iff := rfl
@[simp] theorem State.setCarry_halted (v : Bool) : (s.setCarry v).halted = s.halted := rfl
@[simp] theorem State.setCarry_intInhibit (v : Bool) : (s.setCarry v).intInhibit = s.intInhibit :=
  rfl
@[simp] theorem State.setCarry_mem (v : Bool) : (s.setCarry v).mem = s.mem := rfl
@[simp] theorem State.setCarry_memMap (v : Bool) : (s.setCarry v).memMap = s.memMap := rfl
@[simp] theorem State.setCarry_ioAnswers (v : Bool) : (s.setCarry v).ioAnswers = s.ioAnswers := rfl
@[simp] theorem State.setCarry_history (v : Bool) : (s.setCarry v).history = s.history := rfl
@[simp] theorem State.setCarry_events (v : Bool) : (s.setCarry v).events = s.events := rfl
@[simp] theorem State.setCarry_drawIndex (v : Bool) : (s.setCarry v).drawIndex = s.drawIndex := rfl

-- goto
@[simp] theorem State.goto_a (t : Word) : (s.goto t).a = s.a := rfl
@[simp] theorem State.goto_b (t : Word) : (s.goto t).b = s.b := rfl
@[simp] theorem State.goto_c (t : Word) : (s.goto t).c = s.c := rfl
@[simp] theorem State.goto_d (t : Word) : (s.goto t).d = s.d := rfl
@[simp] theorem State.goto_e (t : Word) : (s.goto t).e = s.e := rfl
@[simp] theorem State.goto_h (t : Word) : (s.goto t).h = s.h := rfl
@[simp] theorem State.goto_l (t : Word) : (s.goto t).l = s.l := rfl
@[simp] theorem State.goto_sp (t : Word) : (s.goto t).sp = s.sp := rfl
@[simp] theorem State.goto_pc (t : Word) : (s.goto t).pc = t := rfl
@[simp] theorem State.goto_flags (t : Word) : (s.goto t).flags = s.flags := rfl
@[simp] theorem State.goto_iff (t : Word) : (s.goto t).iff = s.iff := rfl
@[simp] theorem State.goto_halted (t : Word) : (s.goto t).halted = s.halted := rfl
@[simp] theorem State.goto_intInhibit (t : Word) : (s.goto t).intInhibit = false := rfl
@[simp] theorem State.goto_mem (t : Word) : (s.goto t).mem = s.mem := rfl
@[simp] theorem State.goto_memMap (t : Word) : (s.goto t).memMap = s.memMap := rfl
@[simp] theorem State.goto_ioAnswers (t : Word) : (s.goto t).ioAnswers = s.ioAnswers := rfl
@[simp] theorem State.goto_history (t : Word) : (s.goto t).history = s.history := rfl
@[simp] theorem State.goto_events (t : Word) : (s.goto t).events = s.events := rfl
@[simp] theorem State.goto_drawIndex (t : Word) : (s.goto t).drawIndex = s.drawIndex + 1 := rfl

-- finish
@[simp] theorem State.finish_a (n : Nat) : (s.finish n).a = s.a := rfl
@[simp] theorem State.finish_b (n : Nat) : (s.finish n).b = s.b := rfl
@[simp] theorem State.finish_c (n : Nat) : (s.finish n).c = s.c := rfl
@[simp] theorem State.finish_d (n : Nat) : (s.finish n).d = s.d := rfl
@[simp] theorem State.finish_e (n : Nat) : (s.finish n).e = s.e := rfl
@[simp] theorem State.finish_h (n : Nat) : (s.finish n).h = s.h := rfl
@[simp] theorem State.finish_l (n : Nat) : (s.finish n).l = s.l := rfl
@[simp] theorem State.finish_sp (n : Nat) : (s.finish n).sp = s.sp := rfl
@[simp] theorem State.finish_pc (n : Nat) : (s.finish n).pc = s.nextPc n := rfl
@[simp] theorem State.finish_flags (n : Nat) : (s.finish n).flags = s.flags := rfl
@[simp] theorem State.finish_iff (n : Nat) : (s.finish n).iff = s.iff := rfl
@[simp] theorem State.finish_halted (n : Nat) : (s.finish n).halted = s.halted := rfl
@[simp] theorem State.finish_intInhibit (n : Nat) : (s.finish n).intInhibit = false := rfl
@[simp] theorem State.finish_mem (n : Nat) : (s.finish n).mem = s.mem := rfl
@[simp] theorem State.finish_memMap (n : Nat) : (s.finish n).memMap = s.memMap := rfl
@[simp] theorem State.finish_ioAnswers (n : Nat) : (s.finish n).ioAnswers = s.ioAnswers := rfl
@[simp] theorem State.finish_history (n : Nat) : (s.finish n).history = s.history := rfl
@[simp] theorem State.finish_events (n : Nat) : (s.finish n).events = s.events := rfl
@[simp] theorem State.finish_drawIndex (n : Nat) : (s.finish n).drawIndex = s.drawIndex + 1 := rfl

-- drop16
@[simp] theorem State.drop16_a : s.drop16.a = s.a := rfl
@[simp] theorem State.drop16_b : s.drop16.b = s.b := rfl
@[simp] theorem State.drop16_c : s.drop16.c = s.c := rfl
@[simp] theorem State.drop16_d : s.drop16.d = s.d := rfl
@[simp] theorem State.drop16_e : s.drop16.e = s.e := rfl
@[simp] theorem State.drop16_h : s.drop16.h = s.h := rfl
@[simp] theorem State.drop16_l : s.drop16.l = s.l := rfl
@[simp] theorem State.drop16_sp : s.drop16.sp = s.sp + 1 + 1 := rfl
@[simp] theorem State.drop16_pc : s.drop16.pc = s.pc := rfl
@[simp] theorem State.drop16_flags : s.drop16.flags = s.flags := rfl
@[simp] theorem State.drop16_iff : s.drop16.iff = s.iff := rfl
@[simp] theorem State.drop16_halted : s.drop16.halted = s.halted := rfl
@[simp] theorem State.drop16_intInhibit : s.drop16.intInhibit = s.intInhibit := rfl
@[simp] theorem State.drop16_mem : s.drop16.mem = s.mem := rfl
@[simp] theorem State.drop16_memMap : s.drop16.memMap = s.memMap := rfl
@[simp] theorem State.drop16_ioAnswers : s.drop16.ioAnswers = s.ioAnswers := rfl
@[simp] theorem State.drop16_history : s.drop16.history = s.history := rfl
@[simp] theorem State.drop16_events : s.drop16.events = s.events := rfl
@[simp] theorem State.drop16_drawIndex : s.drop16.drawIndex = s.drawIndex := rfl

-- popPc
@[simp] theorem State.popPc_a : s.popPc.a = s.a := rfl
@[simp] theorem State.popPc_b : s.popPc.b = s.b := rfl
@[simp] theorem State.popPc_c : s.popPc.c = s.c := rfl
@[simp] theorem State.popPc_d : s.popPc.d = s.d := rfl
@[simp] theorem State.popPc_e : s.popPc.e = s.e := rfl
@[simp] theorem State.popPc_h : s.popPc.h = s.h := rfl
@[simp] theorem State.popPc_l : s.popPc.l = s.l := rfl
@[simp] theorem State.popPc_sp : s.popPc.sp = s.sp + 1 + 1 := rfl
@[simp] theorem State.popPc_pc : s.popPc.pc = s.top16 := rfl
@[simp] theorem State.popPc_flags : s.popPc.flags = s.flags := rfl
@[simp] theorem State.popPc_iff : s.popPc.iff = s.iff := rfl
@[simp] theorem State.popPc_halted : s.popPc.halted = s.halted := rfl
@[simp] theorem State.popPc_intInhibit : s.popPc.intInhibit = false := rfl
@[simp] theorem State.popPc_mem : s.popPc.mem = s.mem := rfl
@[simp] theorem State.popPc_memMap : s.popPc.memMap = s.memMap := rfl
@[simp] theorem State.popPc_ioAnswers : s.popPc.ioAnswers = s.ioAnswers := rfl
@[simp] theorem State.popPc_history : s.popPc.history = s.history := rfl
@[simp] theorem State.popPc_events : s.popPc.events = s.events := rfl
@[simp] theorem State.popPc_drawIndex : s.popPc.drawIndex = s.drawIndex + 1 := rfl

-- addAcc
@[simp] theorem State.addAcc_a (b : Byte) (cin : Bool) : (s.addAcc b cin).a = (add8 s.a b cin).res :=
  rfl
@[simp] theorem State.addAcc_b (b : Byte) (cin : Bool) : (s.addAcc b cin).b = s.b := rfl
@[simp] theorem State.addAcc_c (b : Byte) (cin : Bool) : (s.addAcc b cin).c = s.c := rfl
@[simp] theorem State.addAcc_d (b : Byte) (cin : Bool) : (s.addAcc b cin).d = s.d := rfl
@[simp] theorem State.addAcc_e (b : Byte) (cin : Bool) : (s.addAcc b cin).e = s.e := rfl
@[simp] theorem State.addAcc_h (b : Byte) (cin : Bool) : (s.addAcc b cin).h = s.h := rfl
@[simp] theorem State.addAcc_l (b : Byte) (cin : Bool) : (s.addAcc b cin).l = s.l := rfl
@[simp] theorem State.addAcc_sp (b : Byte) (cin : Bool) : (s.addAcc b cin).sp = s.sp := rfl
@[simp] theorem State.addAcc_pc (b : Byte) (cin : Bool) : (s.addAcc b cin).pc = s.pc := rfl
@[simp] theorem State.addAcc_flags (b : Byte) (cin : Bool) : (s.addAcc b cin).flags = s.flags.ofAlu (add8 s.a b cin) :=
  rfl
@[simp] theorem State.addAcc_iff (b : Byte) (cin : Bool) : (s.addAcc b cin).iff = s.iff := rfl
@[simp] theorem State.addAcc_halted (b : Byte) (cin : Bool) : (s.addAcc b cin).halted = s.halted :=
  rfl
@[simp] theorem State.addAcc_intInhibit (b : Byte) (cin : Bool) : (s.addAcc b cin).intInhibit = s.intInhibit :=
  rfl
@[simp] theorem State.addAcc_mem (b : Byte) (cin : Bool) : (s.addAcc b cin).mem = s.mem := rfl
@[simp] theorem State.addAcc_memMap (b : Byte) (cin : Bool) : (s.addAcc b cin).memMap = s.memMap :=
  rfl
@[simp] theorem State.addAcc_ioAnswers (b : Byte) (cin : Bool) : (s.addAcc b cin).ioAnswers = s.ioAnswers :=
  rfl
@[simp] theorem State.addAcc_history (b : Byte) (cin : Bool) : (s.addAcc b cin).history = s.history :=
  rfl
@[simp] theorem State.addAcc_events (b : Byte) (cin : Bool) : (s.addAcc b cin).events = s.events :=
  rfl
@[simp] theorem State.addAcc_drawIndex (b : Byte) (cin : Bool) : (s.addAcc b cin).drawIndex = s.drawIndex :=
  rfl

-- subAcc
@[simp] theorem State.subAcc_a (b : Byte) (bin : Bool) : (s.subAcc b bin).a = (sub8 Config.subH s.a b bin).res :=
  rfl
@[simp] theorem State.subAcc_b (b : Byte) (bin : Bool) : (s.subAcc b bin).b = s.b := rfl
@[simp] theorem State.subAcc_c (b : Byte) (bin : Bool) : (s.subAcc b bin).c = s.c := rfl
@[simp] theorem State.subAcc_d (b : Byte) (bin : Bool) : (s.subAcc b bin).d = s.d := rfl
@[simp] theorem State.subAcc_e (b : Byte) (bin : Bool) : (s.subAcc b bin).e = s.e := rfl
@[simp] theorem State.subAcc_h (b : Byte) (bin : Bool) : (s.subAcc b bin).h = s.h := rfl
@[simp] theorem State.subAcc_l (b : Byte) (bin : Bool) : (s.subAcc b bin).l = s.l := rfl
@[simp] theorem State.subAcc_sp (b : Byte) (bin : Bool) : (s.subAcc b bin).sp = s.sp := rfl
@[simp] theorem State.subAcc_pc (b : Byte) (bin : Bool) : (s.subAcc b bin).pc = s.pc := rfl
@[simp] theorem State.subAcc_flags (b : Byte) (bin : Bool) : (s.subAcc b bin).flags = s.flags.ofAlu (sub8 Config.subH s.a b bin) :=
  rfl
@[simp] theorem State.subAcc_iff (b : Byte) (bin : Bool) : (s.subAcc b bin).iff = s.iff := rfl
@[simp] theorem State.subAcc_halted (b : Byte) (bin : Bool) : (s.subAcc b bin).halted = s.halted :=
  rfl
@[simp] theorem State.subAcc_intInhibit (b : Byte) (bin : Bool) : (s.subAcc b bin).intInhibit = s.intInhibit :=
  rfl
@[simp] theorem State.subAcc_mem (b : Byte) (bin : Bool) : (s.subAcc b bin).mem = s.mem := rfl
@[simp] theorem State.subAcc_memMap (b : Byte) (bin : Bool) : (s.subAcc b bin).memMap = s.memMap :=
  rfl
@[simp] theorem State.subAcc_ioAnswers (b : Byte) (bin : Bool) : (s.subAcc b bin).ioAnswers = s.ioAnswers :=
  rfl
@[simp] theorem State.subAcc_history (b : Byte) (bin : Bool) : (s.subAcc b bin).history = s.history :=
  rfl
@[simp] theorem State.subAcc_events (b : Byte) (bin : Bool) : (s.subAcc b bin).events = s.events :=
  rfl
@[simp] theorem State.subAcc_drawIndex (b : Byte) (bin : Bool) : (s.subAcc b bin).drawIndex = s.drawIndex :=
  rfl

-- compareAcc
@[simp] theorem State.compareAcc_a (b : Byte) : (s.compareAcc b).a = s.a := rfl
@[simp] theorem State.compareAcc_b (b : Byte) : (s.compareAcc b).b = s.b := rfl
@[simp] theorem State.compareAcc_c (b : Byte) : (s.compareAcc b).c = s.c := rfl
@[simp] theorem State.compareAcc_d (b : Byte) : (s.compareAcc b).d = s.d := rfl
@[simp] theorem State.compareAcc_e (b : Byte) : (s.compareAcc b).e = s.e := rfl
@[simp] theorem State.compareAcc_h (b : Byte) : (s.compareAcc b).h = s.h := rfl
@[simp] theorem State.compareAcc_l (b : Byte) : (s.compareAcc b).l = s.l := rfl
@[simp] theorem State.compareAcc_sp (b : Byte) : (s.compareAcc b).sp = s.sp := rfl
@[simp] theorem State.compareAcc_pc (b : Byte) : (s.compareAcc b).pc = s.pc := rfl
@[simp] theorem State.compareAcc_flags (b : Byte) : (s.compareAcc b).flags = s.flags.ofAlu (sub8 Config.subH s.a b false) :=
  rfl
@[simp] theorem State.compareAcc_iff (b : Byte) : (s.compareAcc b).iff = s.iff := rfl
@[simp] theorem State.compareAcc_halted (b : Byte) : (s.compareAcc b).halted = s.halted := rfl
@[simp] theorem State.compareAcc_intInhibit (b : Byte) : (s.compareAcc b).intInhibit = s.intInhibit :=
  rfl
@[simp] theorem State.compareAcc_mem (b : Byte) : (s.compareAcc b).mem = s.mem := rfl
@[simp] theorem State.compareAcc_memMap (b : Byte) : (s.compareAcc b).memMap = s.memMap := rfl
@[simp] theorem State.compareAcc_ioAnswers (b : Byte) : (s.compareAcc b).ioAnswers = s.ioAnswers :=
  rfl
@[simp] theorem State.compareAcc_history (b : Byte) : (s.compareAcc b).history = s.history := rfl
@[simp] theorem State.compareAcc_events (b : Byte) : (s.compareAcc b).events = s.events := rfl
@[simp] theorem State.compareAcc_drawIndex (b : Byte) : (s.compareAcc b).drawIndex = s.drawIndex :=
  rfl

-- logicAcc
@[simp] theorem State.logicAcc_a (v : Byte) : (s.logicAcc v).a = v := rfl
@[simp] theorem State.logicAcc_b (v : Byte) : (s.logicAcc v).b = s.b := rfl
@[simp] theorem State.logicAcc_c (v : Byte) : (s.logicAcc v).c = s.c := rfl
@[simp] theorem State.logicAcc_d (v : Byte) : (s.logicAcc v).d = s.d := rfl
@[simp] theorem State.logicAcc_e (v : Byte) : (s.logicAcc v).e = s.e := rfl
@[simp] theorem State.logicAcc_h (v : Byte) : (s.logicAcc v).h = s.h := rfl
@[simp] theorem State.logicAcc_l (v : Byte) : (s.logicAcc v).l = s.l := rfl
@[simp] theorem State.logicAcc_sp (v : Byte) : (s.logicAcc v).sp = s.sp := rfl
@[simp] theorem State.logicAcc_pc (v : Byte) : (s.logicAcc v).pc = s.pc := rfl
@[simp] theorem State.logicAcc_flags (v : Byte) : (s.logicAcc v).flags = s.flags.ofLogic v := rfl
@[simp] theorem State.logicAcc_iff (v : Byte) : (s.logicAcc v).iff = s.iff := rfl
@[simp] theorem State.logicAcc_halted (v : Byte) : (s.logicAcc v).halted = s.halted := rfl
@[simp] theorem State.logicAcc_intInhibit (v : Byte) : (s.logicAcc v).intInhibit = s.intInhibit :=
  rfl
@[simp] theorem State.logicAcc_mem (v : Byte) : (s.logicAcc v).mem = s.mem := rfl
@[simp] theorem State.logicAcc_memMap (v : Byte) : (s.logicAcc v).memMap = s.memMap := rfl
@[simp] theorem State.logicAcc_ioAnswers (v : Byte) : (s.logicAcc v).ioAnswers = s.ioAnswers := rfl
@[simp] theorem State.logicAcc_history (v : Byte) : (s.logicAcc v).history = s.history := rfl
@[simp] theorem State.logicAcc_events (v : Byte) : (s.logicAcc v).events = s.events := rfl
@[simp] theorem State.logicAcc_drawIndex (v : Byte) : (s.logicAcc v).drawIndex = s.drawIndex := rfl

-- addHL
@[simp] theorem State.addHL_a (v : Word) : (s.addHL v).a = s.a := rfl
@[simp] theorem State.addHL_b (v : Word) : (s.addHL v).b = s.b := rfl
@[simp] theorem State.addHL_c (v : Word) : (s.addHL v).c = s.c := rfl
@[simp] theorem State.addHL_d (v : Word) : (s.addHL v).d = s.d := rfl
@[simp] theorem State.addHL_e (v : Word) : (s.addHL v).e = s.e := rfl
@[simp] theorem State.addHL_h (v : Word) : (s.addHL v).h = hi (BitVec.ofNat 16 (s.hl.toNat + v.toNat)) :=
  rfl
@[simp] theorem State.addHL_l (v : Word) : (s.addHL v).l = lo (BitVec.ofNat 16 (s.hl.toNat + v.toNat)) :=
  rfl
@[simp] theorem State.addHL_sp (v : Word) : (s.addHL v).sp = s.sp := rfl
@[simp] theorem State.addHL_pc (v : Word) : (s.addHL v).pc = s.pc := rfl
@[simp] theorem State.addHL_flags (v : Word) : (s.addHL v).flags = { s.flags with c := decide (s.hl.toNat + v.toNat > 65535) } :=
  rfl
@[simp] theorem State.addHL_iff (v : Word) : (s.addHL v).iff = s.iff := rfl
@[simp] theorem State.addHL_halted (v : Word) : (s.addHL v).halted = s.halted := rfl
@[simp] theorem State.addHL_intInhibit (v : Word) : (s.addHL v).intInhibit = s.intInhibit := rfl
@[simp] theorem State.addHL_mem (v : Word) : (s.addHL v).mem = s.mem := rfl
@[simp] theorem State.addHL_memMap (v : Word) : (s.addHL v).memMap = s.memMap := rfl
@[simp] theorem State.addHL_ioAnswers (v : Word) : (s.addHL v).ioAnswers = s.ioAnswers := rfl
@[simp] theorem State.addHL_history (v : Word) : (s.addHL v).history = s.history := rfl
@[simp] theorem State.addHL_events (v : Word) : (s.addHL v).events = s.events := rfl
@[simp] theorem State.addHL_drawIndex (v : Word) : (s.addHL v).drawIndex = s.drawIndex := rfl

-- ioRead
@[simp] theorem State.ioRead_a (p : Byte) : (s.ioRead p).a = s.a := rfl
@[simp] theorem State.ioRead_b (p : Byte) : (s.ioRead p).b = s.b := rfl
@[simp] theorem State.ioRead_c (p : Byte) : (s.ioRead p).c = s.c := rfl
@[simp] theorem State.ioRead_d (p : Byte) : (s.ioRead p).d = s.d := rfl
@[simp] theorem State.ioRead_e (p : Byte) : (s.ioRead p).e = s.e := rfl
@[simp] theorem State.ioRead_h (p : Byte) : (s.ioRead p).h = s.h := rfl
@[simp] theorem State.ioRead_l (p : Byte) : (s.ioRead p).l = s.l := rfl
@[simp] theorem State.ioRead_sp (p : Byte) : (s.ioRead p).sp = s.sp := rfl
@[simp] theorem State.ioRead_pc (p : Byte) : (s.ioRead p).pc = s.pc := rfl
@[simp] theorem State.ioRead_flags (p : Byte) : (s.ioRead p).flags = s.flags := rfl
@[simp] theorem State.ioRead_iff (p : Byte) : (s.ioRead p).iff = s.iff := rfl
@[simp] theorem State.ioRead_halted (p : Byte) : (s.ioRead p).halted = s.halted := rfl
@[simp] theorem State.ioRead_intInhibit (p : Byte) : (s.ioRead p).intInhibit = s.intInhibit := rfl
@[simp] theorem State.ioRead_mem (p : Byte) : (s.ioRead p).mem = s.mem := rfl
@[simp] theorem State.ioRead_memMap (p : Byte) : (s.ioRead p).memMap = s.memMap := rfl
@[simp] theorem State.ioRead_ioAnswers (p : Byte) : (s.ioRead p).ioAnswers = s.ioAnswers.tail := rfl
@[simp] theorem State.ioRead_history (p : Byte) : (s.ioRead p).history = s.history ++ [.read p (s.ioAnswer p)] :=
  rfl
@[simp] theorem State.ioRead_events (p : Byte) : (s.ioRead p).events = s.events := rfl
@[simp] theorem State.ioRead_drawIndex (p : Byte) : (s.ioRead p).drawIndex = s.drawIndex := rfl

-- ioWrite
@[simp] theorem State.ioWrite_a (p v : Byte) : (s.ioWrite p v).a = s.a := rfl
@[simp] theorem State.ioWrite_b (p v : Byte) : (s.ioWrite p v).b = s.b := rfl
@[simp] theorem State.ioWrite_c (p v : Byte) : (s.ioWrite p v).c = s.c := rfl
@[simp] theorem State.ioWrite_d (p v : Byte) : (s.ioWrite p v).d = s.d := rfl
@[simp] theorem State.ioWrite_e (p v : Byte) : (s.ioWrite p v).e = s.e := rfl
@[simp] theorem State.ioWrite_h (p v : Byte) : (s.ioWrite p v).h = s.h := rfl
@[simp] theorem State.ioWrite_l (p v : Byte) : (s.ioWrite p v).l = s.l := rfl
@[simp] theorem State.ioWrite_sp (p v : Byte) : (s.ioWrite p v).sp = s.sp := rfl
@[simp] theorem State.ioWrite_pc (p v : Byte) : (s.ioWrite p v).pc = s.pc := rfl
@[simp] theorem State.ioWrite_flags (p v : Byte) : (s.ioWrite p v).flags = s.flags := rfl
@[simp] theorem State.ioWrite_iff (p v : Byte) : (s.ioWrite p v).iff = s.iff := rfl
@[simp] theorem State.ioWrite_halted (p v : Byte) : (s.ioWrite p v).halted = s.halted := rfl
@[simp] theorem State.ioWrite_intInhibit (p v : Byte) : (s.ioWrite p v).intInhibit = s.intInhibit :=
  rfl
@[simp] theorem State.ioWrite_mem (p v : Byte) : (s.ioWrite p v).mem = s.mem := rfl
@[simp] theorem State.ioWrite_memMap (p v : Byte) : (s.ioWrite p v).memMap = s.memMap := rfl
@[simp] theorem State.ioWrite_ioAnswers (p v : Byte) : (s.ioWrite p v).ioAnswers = s.ioAnswers :=
  rfl
@[simp] theorem State.ioWrite_history (p v : Byte) : (s.ioWrite p v).history = s.history ++ [.write p v] :=
  rfl
@[simp] theorem State.ioWrite_events (p v : Byte) : (s.ioWrite p v).events = s.events := rfl
@[simp] theorem State.ioWrite_drawIndex (p v : Byte) : (s.ioWrite p v).drawIndex = s.drawIndex :=
  rfl

-- takeEvent
@[simp] theorem State.takeEvent_a : s.takeEvent.a = s.a := rfl
@[simp] theorem State.takeEvent_b : s.takeEvent.b = s.b := rfl
@[simp] theorem State.takeEvent_c : s.takeEvent.c = s.c := rfl
@[simp] theorem State.takeEvent_d : s.takeEvent.d = s.d := rfl
@[simp] theorem State.takeEvent_e : s.takeEvent.e = s.e := rfl
@[simp] theorem State.takeEvent_h : s.takeEvent.h = s.h := rfl
@[simp] theorem State.takeEvent_l : s.takeEvent.l = s.l := rfl
@[simp] theorem State.takeEvent_sp : s.takeEvent.sp = s.sp := rfl
@[simp] theorem State.takeEvent_pc : s.takeEvent.pc = s.pc := rfl
@[simp] theorem State.takeEvent_flags : s.takeEvent.flags = s.flags := rfl
@[simp] theorem State.takeEvent_iff : s.takeEvent.iff = s.iff := rfl
@[simp] theorem State.takeEvent_halted : s.takeEvent.halted = s.halted := rfl
@[simp] theorem State.takeEvent_intInhibit : s.takeEvent.intInhibit = s.intInhibit := rfl
@[simp] theorem State.takeEvent_mem : s.takeEvent.mem = s.mem := rfl
@[simp] theorem State.takeEvent_memMap : s.takeEvent.memMap = s.memMap := rfl
@[simp] theorem State.takeEvent_ioAnswers : s.takeEvent.ioAnswers = s.ioAnswers := rfl
@[simp] theorem State.takeEvent_history : s.takeEvent.history = s.history := rfl
@[simp] theorem State.takeEvent_events : s.takeEvent.events = s.events.tail := rfl
@[simp] theorem State.takeEvent_drawIndex : s.takeEvent.drawIndex = s.drawIndex := rfl

-- clearBoundary
@[simp] theorem State.clearBoundary_a : s.clearBoundary.a = s.a := rfl
@[simp] theorem State.clearBoundary_b : s.clearBoundary.b = s.b := rfl
@[simp] theorem State.clearBoundary_c : s.clearBoundary.c = s.c := rfl
@[simp] theorem State.clearBoundary_d : s.clearBoundary.d = s.d := rfl
@[simp] theorem State.clearBoundary_e : s.clearBoundary.e = s.e := rfl
@[simp] theorem State.clearBoundary_h : s.clearBoundary.h = s.h := rfl
@[simp] theorem State.clearBoundary_l : s.clearBoundary.l = s.l := rfl
@[simp] theorem State.clearBoundary_sp : s.clearBoundary.sp = s.sp := rfl
@[simp] theorem State.clearBoundary_pc : s.clearBoundary.pc = s.pc := rfl
@[simp] theorem State.clearBoundary_flags : s.clearBoundary.flags = s.flags := rfl
@[simp] theorem State.clearBoundary_iff : s.clearBoundary.iff = s.iff := rfl
@[simp] theorem State.clearBoundary_halted : s.clearBoundary.halted = false := rfl
@[simp] theorem State.clearBoundary_intInhibit : s.clearBoundary.intInhibit = s.intInhibit := rfl
@[simp] theorem State.clearBoundary_mem : s.clearBoundary.mem = s.mem := rfl
@[simp] theorem State.clearBoundary_memMap : s.clearBoundary.memMap = s.memMap := rfl
@[simp] theorem State.clearBoundary_ioAnswers : s.clearBoundary.ioAnswers = s.ioAnswers := rfl
@[simp] theorem State.clearBoundary_history : s.clearBoundary.history = s.history := rfl
@[simp] theorem State.clearBoundary_events :
    s.clearBoundary.events = (match s.events with | [] => [] | _ :: es => .quiet :: es) := rfl
@[simp] theorem State.clearBoundary_drawIndex : s.clearBoundary.drawIndex = s.drawIndex := rfl

-- setReg: every field that is no general register stays
@[simp] theorem State.setReg_sp (r : Reg8) (v : Byte) : (s.setReg r v).sp = s.sp := by
  cases r <;> rfl
@[simp] theorem State.setReg_pc (r : Reg8) (v : Byte) : (s.setReg r v).pc = s.pc := by
  cases r <;> rfl
@[simp] theorem State.setReg_flags (r : Reg8) (v : Byte) : (s.setReg r v).flags = s.flags := by
  cases r <;> rfl
@[simp] theorem State.setReg_iff (r : Reg8) (v : Byte) : (s.setReg r v).iff = s.iff := by
  cases r <;> rfl
@[simp] theorem State.setReg_halted (r : Reg8) (v : Byte) : (s.setReg r v).halted = s.halted := by
  cases r <;> rfl
@[simp] theorem State.setReg_intInhibit (r : Reg8) (v : Byte) : (s.setReg r v).intInhibit = s.intInhibit := by
  cases r <;> rfl
@[simp] theorem State.setReg_mem (r : Reg8) (v : Byte) : (s.setReg r v).mem = s.mem := by
  cases r <;> rfl
@[simp] theorem State.setReg_memMap (r : Reg8) (v : Byte) : (s.setReg r v).memMap = s.memMap := by
  cases r <;> rfl
@[simp] theorem State.setReg_ioAnswers (r : Reg8) (v : Byte) : (s.setReg r v).ioAnswers = s.ioAnswers := by
  cases r <;> rfl
@[simp] theorem State.setReg_history (r : Reg8) (v : Byte) : (s.setReg r v).history = s.history := by
  cases r <;> rfl
@[simp] theorem State.setReg_events (r : Reg8) (v : Byte) : (s.setReg r v).events = s.events := by
  cases r <;> rfl
@[simp] theorem State.setReg_drawIndex (r : Reg8) (v : Byte) : (s.setReg r v).drawIndex = s.drawIndex := by
  cases r <;> rfl

-- memWrite: only the memory changes
@[simp] theorem State.memWrite_a (x : Word) (v : Byte) : (s.memWrite x v).a = s.a := by
  unfold State.memWrite; split <;> rfl
@[simp] theorem State.memWrite_b (x : Word) (v : Byte) : (s.memWrite x v).b = s.b := by
  unfold State.memWrite; split <;> rfl
@[simp] theorem State.memWrite_c (x : Word) (v : Byte) : (s.memWrite x v).c = s.c := by
  unfold State.memWrite; split <;> rfl
@[simp] theorem State.memWrite_d (x : Word) (v : Byte) : (s.memWrite x v).d = s.d := by
  unfold State.memWrite; split <;> rfl
@[simp] theorem State.memWrite_e (x : Word) (v : Byte) : (s.memWrite x v).e = s.e := by
  unfold State.memWrite; split <;> rfl
@[simp] theorem State.memWrite_h (x : Word) (v : Byte) : (s.memWrite x v).h = s.h := by
  unfold State.memWrite; split <;> rfl
@[simp] theorem State.memWrite_l (x : Word) (v : Byte) : (s.memWrite x v).l = s.l := by
  unfold State.memWrite; split <;> rfl
@[simp] theorem State.memWrite_sp (x : Word) (v : Byte) : (s.memWrite x v).sp = s.sp := by
  unfold State.memWrite; split <;> rfl
@[simp] theorem State.memWrite_pc (x : Word) (v : Byte) : (s.memWrite x v).pc = s.pc := by
  unfold State.memWrite; split <;> rfl
@[simp] theorem State.memWrite_flags (x : Word) (v : Byte) : (s.memWrite x v).flags = s.flags := by
  unfold State.memWrite; split <;> rfl
@[simp] theorem State.memWrite_iff (x : Word) (v : Byte) : (s.memWrite x v).iff = s.iff := by
  unfold State.memWrite; split <;> rfl
@[simp] theorem State.memWrite_halted (x : Word) (v : Byte) : (s.memWrite x v).halted = s.halted := by
  unfold State.memWrite; split <;> rfl
@[simp] theorem State.memWrite_intInhibit (x : Word) (v : Byte) : (s.memWrite x v).intInhibit = s.intInhibit := by
  unfold State.memWrite; split <;> rfl
@[simp] theorem State.memWrite_memMap (x : Word) (v : Byte) : (s.memWrite x v).memMap = s.memMap := by
  unfold State.memWrite; split <;> rfl
@[simp] theorem State.memWrite_ioAnswers (x : Word) (v : Byte) : (s.memWrite x v).ioAnswers = s.ioAnswers := by
  unfold State.memWrite; split <;> rfl
@[simp] theorem State.memWrite_history (x : Word) (v : Byte) : (s.memWrite x v).history = s.history := by
  unfold State.memWrite; split <;> rfl
@[simp] theorem State.memWrite_events (x : Word) (v : Byte) : (s.memWrite x v).events = s.events := by
  unfold State.memWrite; split <;> rfl
@[simp] theorem State.memWrite_drawIndex (x : Word) (v : Byte) : (s.memWrite x v).drawIndex = s.drawIndex := by
  unfold State.memWrite; split <;> rfl

-- push16 and call: SP, memory and, for a call, pc change
@[simp] theorem State.push16_a (v : Word) : (s.push16 v).a = s.a := by
  simp [State.push16]
@[simp] theorem State.push16_b (v : Word) : (s.push16 v).b = s.b := by
  simp [State.push16]
@[simp] theorem State.push16_c (v : Word) : (s.push16 v).c = s.c := by
  simp [State.push16]
@[simp] theorem State.push16_d (v : Word) : (s.push16 v).d = s.d := by
  simp [State.push16]
@[simp] theorem State.push16_e (v : Word) : (s.push16 v).e = s.e := by
  simp [State.push16]
@[simp] theorem State.push16_h (v : Word) : (s.push16 v).h = s.h := by
  simp [State.push16]
@[simp] theorem State.push16_l (v : Word) : (s.push16 v).l = s.l := by
  simp [State.push16]
@[simp] theorem State.push16_pc (v : Word) : (s.push16 v).pc = s.pc := by
  simp [State.push16]
@[simp] theorem State.push16_flags (v : Word) : (s.push16 v).flags = s.flags := by
  simp [State.push16]
@[simp] theorem State.push16_iff (v : Word) : (s.push16 v).iff = s.iff := by
  simp [State.push16]
@[simp] theorem State.push16_halted (v : Word) : (s.push16 v).halted = s.halted := by
  simp [State.push16]
@[simp] theorem State.push16_intInhibit (v : Word) : (s.push16 v).intInhibit = s.intInhibit := by
  simp [State.push16]
@[simp] theorem State.push16_memMap (v : Word) : (s.push16 v).memMap = s.memMap := by
  simp [State.push16]
@[simp] theorem State.push16_ioAnswers (v : Word) : (s.push16 v).ioAnswers = s.ioAnswers := by
  simp [State.push16]
@[simp] theorem State.push16_history (v : Word) : (s.push16 v).history = s.history := by
  simp [State.push16]
@[simp] theorem State.push16_events (v : Word) : (s.push16 v).events = s.events := by
  simp [State.push16]
@[simp] theorem State.push16_drawIndex (v : Word) : (s.push16 v).drawIndex = s.drawIndex := by
  simp [State.push16]
@[simp] theorem State.call_a (r t : Word) : (s.call r t).a = s.a := by
  simp [State.call]
@[simp] theorem State.call_b (r t : Word) : (s.call r t).b = s.b := by
  simp [State.call]
@[simp] theorem State.call_c (r t : Word) : (s.call r t).c = s.c := by
  simp [State.call]
@[simp] theorem State.call_d (r t : Word) : (s.call r t).d = s.d := by
  simp [State.call]
@[simp] theorem State.call_e (r t : Word) : (s.call r t).e = s.e := by
  simp [State.call]
@[simp] theorem State.call_h (r t : Word) : (s.call r t).h = s.h := by
  simp [State.call]
@[simp] theorem State.call_l (r t : Word) : (s.call r t).l = s.l := by
  simp [State.call]
@[simp] theorem State.call_pc (r t : Word) : (s.call r t).pc = t := by
  simp [State.call]
@[simp] theorem State.call_flags (r t : Word) : (s.call r t).flags = s.flags := by
  simp [State.call]
@[simp] theorem State.call_iff (r t : Word) : (s.call r t).iff = s.iff := by
  simp [State.call]
@[simp] theorem State.call_halted (r t : Word) : (s.call r t).halted = s.halted := by
  simp [State.call]
@[simp] theorem State.call_intInhibit (r t : Word) : (s.call r t).intInhibit = false := by
  simp [State.call]
@[simp] theorem State.call_memMap (r t : Word) : (s.call r t).memMap = s.memMap := by
  simp [State.call]
@[simp] theorem State.call_ioAnswers (r t : Word) : (s.call r t).ioAnswers = s.ioAnswers := by
  simp [State.call]
@[simp] theorem State.call_history (r t : Word) : (s.call r t).history = s.history := by
  simp [State.call]
@[simp] theorem State.call_events (r t : Word) : (s.call r t).events = s.events := by
  simp [State.call]
@[simp] theorem State.call_drawIndex (r t : Word) : (s.call r t).drawIndex = s.drawIndex + 1 := by
  simp [State.call]

-- jumpIf
@[simp] theorem State.jumpIf_a (k : Cond) (t : Word) : (s.jumpIf k t).a = s.a := by
  unfold State.jumpIf; split <;> simp
@[simp] theorem State.jumpIf_b (k : Cond) (t : Word) : (s.jumpIf k t).b = s.b := by
  unfold State.jumpIf; split <;> simp
@[simp] theorem State.jumpIf_c (k : Cond) (t : Word) : (s.jumpIf k t).c = s.c := by
  unfold State.jumpIf; split <;> simp
@[simp] theorem State.jumpIf_d (k : Cond) (t : Word) : (s.jumpIf k t).d = s.d := by
  unfold State.jumpIf; split <;> simp
@[simp] theorem State.jumpIf_e (k : Cond) (t : Word) : (s.jumpIf k t).e = s.e := by
  unfold State.jumpIf; split <;> simp
@[simp] theorem State.jumpIf_h (k : Cond) (t : Word) : (s.jumpIf k t).h = s.h := by
  unfold State.jumpIf; split <;> simp
@[simp] theorem State.jumpIf_l (k : Cond) (t : Word) : (s.jumpIf k t).l = s.l := by
  unfold State.jumpIf; split <;> simp
@[simp] theorem State.jumpIf_sp (k : Cond) (t : Word) : (s.jumpIf k t).sp = s.sp := by
  unfold State.jumpIf; split <;> simp
@[simp] theorem State.jumpIf_flags (k : Cond) (t : Word) : (s.jumpIf k t).flags = s.flags := by
  unfold State.jumpIf; split <;> simp
@[simp] theorem State.jumpIf_iff (k : Cond) (t : Word) : (s.jumpIf k t).iff = s.iff := by
  unfold State.jumpIf; split <;> simp
@[simp] theorem State.jumpIf_halted (k : Cond) (t : Word) : (s.jumpIf k t).halted = s.halted := by
  unfold State.jumpIf; split <;> simp
@[simp] theorem State.jumpIf_intInhibit (k : Cond) (t : Word) : (s.jumpIf k t).intInhibit = false := by
  unfold State.jumpIf; split <;> simp
@[simp] theorem State.jumpIf_mem (k : Cond) (t : Word) : (s.jumpIf k t).mem = s.mem := by
  unfold State.jumpIf; split <;> simp
@[simp] theorem State.jumpIf_memMap (k : Cond) (t : Word) : (s.jumpIf k t).memMap = s.memMap := by
  unfold State.jumpIf; split <;> simp
@[simp] theorem State.jumpIf_ioAnswers (k : Cond) (t : Word) : (s.jumpIf k t).ioAnswers = s.ioAnswers := by
  unfold State.jumpIf; split <;> simp
@[simp] theorem State.jumpIf_history (k : Cond) (t : Word) : (s.jumpIf k t).history = s.history := by
  unfold State.jumpIf; split <;> simp
@[simp] theorem State.jumpIf_events (k : Cond) (t : Word) : (s.jumpIf k t).events = s.events := by
  unfold State.jumpIf; split <;> simp
@[simp] theorem State.jumpIf_drawIndex (k : Cond) (t : Word) : (s.jumpIf k t).drawIndex = s.drawIndex + 1 := by
  unfold State.jumpIf; split <;> simp

-- callIf
@[simp] theorem State.callIf_a (k : Cond) (t : Word) : (s.callIf k t).a = s.a := by
  unfold State.callIf; split <;> simp
@[simp] theorem State.callIf_b (k : Cond) (t : Word) : (s.callIf k t).b = s.b := by
  unfold State.callIf; split <;> simp
@[simp] theorem State.callIf_c (k : Cond) (t : Word) : (s.callIf k t).c = s.c := by
  unfold State.callIf; split <;> simp
@[simp] theorem State.callIf_d (k : Cond) (t : Word) : (s.callIf k t).d = s.d := by
  unfold State.callIf; split <;> simp
@[simp] theorem State.callIf_e (k : Cond) (t : Word) : (s.callIf k t).e = s.e := by
  unfold State.callIf; split <;> simp
@[simp] theorem State.callIf_h (k : Cond) (t : Word) : (s.callIf k t).h = s.h := by
  unfold State.callIf; split <;> simp
@[simp] theorem State.callIf_l (k : Cond) (t : Word) : (s.callIf k t).l = s.l := by
  unfold State.callIf; split <;> simp
@[simp] theorem State.callIf_flags (k : Cond) (t : Word) : (s.callIf k t).flags = s.flags := by
  unfold State.callIf; split <;> simp
@[simp] theorem State.callIf_iff (k : Cond) (t : Word) : (s.callIf k t).iff = s.iff := by
  unfold State.callIf; split <;> simp
@[simp] theorem State.callIf_halted (k : Cond) (t : Word) : (s.callIf k t).halted = s.halted := by
  unfold State.callIf; split <;> simp
@[simp] theorem State.callIf_intInhibit (k : Cond) (t : Word) : (s.callIf k t).intInhibit = false := by
  unfold State.callIf; split <;> simp
@[simp] theorem State.callIf_memMap (k : Cond) (t : Word) : (s.callIf k t).memMap = s.memMap := by
  unfold State.callIf; split <;> simp
@[simp] theorem State.callIf_ioAnswers (k : Cond) (t : Word) : (s.callIf k t).ioAnswers = s.ioAnswers := by
  unfold State.callIf; split <;> simp
@[simp] theorem State.callIf_history (k : Cond) (t : Word) : (s.callIf k t).history = s.history := by
  unfold State.callIf; split <;> simp
@[simp] theorem State.callIf_events (k : Cond) (t : Word) : (s.callIf k t).events = s.events := by
  unfold State.callIf; split <;> simp
@[simp] theorem State.callIf_drawIndex (k : Cond) (t : Word) : (s.callIf k t).drawIndex = s.drawIndex + 1 := by
  unfold State.callIf; split <;> simp

-- returnIf
@[simp] theorem State.returnIf_a (k : Cond) : (s.returnIf k).a = s.a := by
  unfold State.returnIf; split <;> simp
@[simp] theorem State.returnIf_b (k : Cond) : (s.returnIf k).b = s.b := by
  unfold State.returnIf; split <;> simp
@[simp] theorem State.returnIf_c (k : Cond) : (s.returnIf k).c = s.c := by
  unfold State.returnIf; split <;> simp
@[simp] theorem State.returnIf_d (k : Cond) : (s.returnIf k).d = s.d := by
  unfold State.returnIf; split <;> simp
@[simp] theorem State.returnIf_e (k : Cond) : (s.returnIf k).e = s.e := by
  unfold State.returnIf; split <;> simp
@[simp] theorem State.returnIf_h (k : Cond) : (s.returnIf k).h = s.h := by
  unfold State.returnIf; split <;> simp
@[simp] theorem State.returnIf_l (k : Cond) : (s.returnIf k).l = s.l := by
  unfold State.returnIf; split <;> simp
@[simp] theorem State.returnIf_flags (k : Cond) : (s.returnIf k).flags = s.flags := by
  unfold State.returnIf; split <;> simp
@[simp] theorem State.returnIf_iff (k : Cond) : (s.returnIf k).iff = s.iff := by
  unfold State.returnIf; split <;> simp
@[simp] theorem State.returnIf_halted (k : Cond) : (s.returnIf k).halted = s.halted := by
  unfold State.returnIf; split <;> simp
@[simp] theorem State.returnIf_intInhibit (k : Cond) : (s.returnIf k).intInhibit = false := by
  unfold State.returnIf; split <;> simp
@[simp] theorem State.returnIf_mem (k : Cond) : (s.returnIf k).mem = s.mem := by
  unfold State.returnIf; split <;> simp
@[simp] theorem State.returnIf_memMap (k : Cond) : (s.returnIf k).memMap = s.memMap := by
  unfold State.returnIf; split <;> simp
@[simp] theorem State.returnIf_ioAnswers (k : Cond) : (s.returnIf k).ioAnswers = s.ioAnswers := by
  unfold State.returnIf; split <;> simp
@[simp] theorem State.returnIf_history (k : Cond) : (s.returnIf k).history = s.history := by
  unfold State.returnIf; split <;> simp
@[simp] theorem State.returnIf_events (k : Cond) : (s.returnIf k).events = s.events := by
  unfold State.returnIf; split <;> simp
@[simp] theorem State.returnIf_drawIndex (k : Cond) : (s.returnIf k).drawIndex = s.drawIndex + 1 := by
  unfold State.returnIf; split <;> simp

-- acceptInterrupt: SP and memory as a push leaves them
@[simp] theorem State.acceptInterrupt_a (i : Fin 8) : (s.acceptInterrupt i).a = s.a := by
  simp [State.acceptInterrupt]
@[simp] theorem State.acceptInterrupt_b (i : Fin 8) : (s.acceptInterrupt i).b = s.b := by
  simp [State.acceptInterrupt]
@[simp] theorem State.acceptInterrupt_c (i : Fin 8) : (s.acceptInterrupt i).c = s.c := by
  simp [State.acceptInterrupt]
@[simp] theorem State.acceptInterrupt_d (i : Fin 8) : (s.acceptInterrupt i).d = s.d := by
  simp [State.acceptInterrupt]
@[simp] theorem State.acceptInterrupt_e (i : Fin 8) : (s.acceptInterrupt i).e = s.e := by
  simp [State.acceptInterrupt]
@[simp] theorem State.acceptInterrupt_h (i : Fin 8) : (s.acceptInterrupt i).h = s.h := by
  simp [State.acceptInterrupt]
@[simp] theorem State.acceptInterrupt_l (i : Fin 8) : (s.acceptInterrupt i).l = s.l := by
  simp [State.acceptInterrupt]
@[simp] theorem State.acceptInterrupt_pc (i : Fin 8) : (s.acceptInterrupt i).pc = restartAddress i.val := by
  simp [State.acceptInterrupt]
@[simp] theorem State.acceptInterrupt_flags (i : Fin 8) : (s.acceptInterrupt i).flags = s.flags := by
  simp [State.acceptInterrupt]
@[simp] theorem State.acceptInterrupt_iff (i : Fin 8) : (s.acceptInterrupt i).iff = false := by
  simp [State.acceptInterrupt]
@[simp] theorem State.acceptInterrupt_halted (i : Fin 8) : (s.acceptInterrupt i).halted = false := by
  simp [State.acceptInterrupt]
@[simp] theorem State.acceptInterrupt_intInhibit (i : Fin 8) : (s.acceptInterrupt i).intInhibit = false := by
  simp [State.acceptInterrupt]
@[simp] theorem State.acceptInterrupt_memMap (i : Fin 8) : (s.acceptInterrupt i).memMap = s.memMap := by
  simp [State.acceptInterrupt]
@[simp] theorem State.acceptInterrupt_ioAnswers (i : Fin 8) : (s.acceptInterrupt i).ioAnswers = s.ioAnswers := by
  simp [State.acceptInterrupt]
@[simp] theorem State.acceptInterrupt_history (i : Fin 8) : (s.acceptInterrupt i).history = s.history := by
  simp [State.acceptInterrupt]
@[simp] theorem State.acceptInterrupt_events (i : Fin 8) : (s.acceptInterrupt i).events = s.events := by
  simp [State.acceptInterrupt]
@[simp] theorem State.acceptInterrupt_drawIndex (i : Fin 8) : (s.acceptInterrupt i).drawIndex = s.drawIndex + 1 := by
  simp [State.acceptInterrupt]

-- applyReset: what the spec gives a value, and what a reset does not touch
@[simp] theorem State.applyReset_pc : s.applyReset.pc = 0x0000#16 := rfl
@[simp] theorem State.applyReset_iff : s.applyReset.iff = false := rfl
@[simp] theorem State.applyReset_halted : s.applyReset.halted = false := rfl
@[simp] theorem State.applyReset_intInhibit : s.applyReset.intInhibit = false := rfl
@[simp] theorem State.applyReset_mem : s.applyReset.mem = s.mem := rfl
@[simp] theorem State.applyReset_memMap : s.applyReset.memMap = s.memMap := rfl
@[simp] theorem State.applyReset_ioAnswers : s.applyReset.ioAnswers = s.ioAnswers := rfl
@[simp] theorem State.applyReset_history : s.applyReset.history = s.history := rfl
@[simp] theorem State.applyReset_events : s.applyReset.events = s.events := rfl
@[simp] theorem State.applyReset_drawIndex : s.applyReset.drawIndex = s.drawIndex + 1 := rfl

-- the register named by a constructor
@[simp] theorem State.reg_b : s.reg .b = s.b := rfl
@[simp] theorem State.reg_c : s.reg .c = s.c := rfl
@[simp] theorem State.reg_d : s.reg .d = s.d := rfl
@[simp] theorem State.reg_e : s.reg .e = s.e := rfl
@[simp] theorem State.reg_h : s.reg .h = s.h := rfl
@[simp] theorem State.reg_l : s.reg .l = s.l := rfl
@[simp] theorem State.reg_a : s.reg .a = s.a := rfl

-- setReg by a constructor: the register it names, and the others
@[simp] theorem State.setReg_b_b (v : Byte) : (s.setReg .b v).b = v := rfl
@[simp] theorem State.setReg_b_c (v : Byte) : (s.setReg .b v).c = s.c := rfl
@[simp] theorem State.setReg_b_d (v : Byte) : (s.setReg .b v).d = s.d := rfl
@[simp] theorem State.setReg_b_e (v : Byte) : (s.setReg .b v).e = s.e := rfl
@[simp] theorem State.setReg_b_h (v : Byte) : (s.setReg .b v).h = s.h := rfl
@[simp] theorem State.setReg_b_l (v : Byte) : (s.setReg .b v).l = s.l := rfl
@[simp] theorem State.setReg_b_a (v : Byte) : (s.setReg .b v).a = s.a := rfl
@[simp] theorem State.setReg_c_b (v : Byte) : (s.setReg .c v).b = s.b := rfl
@[simp] theorem State.setReg_c_c (v : Byte) : (s.setReg .c v).c = v := rfl
@[simp] theorem State.setReg_c_d (v : Byte) : (s.setReg .c v).d = s.d := rfl
@[simp] theorem State.setReg_c_e (v : Byte) : (s.setReg .c v).e = s.e := rfl
@[simp] theorem State.setReg_c_h (v : Byte) : (s.setReg .c v).h = s.h := rfl
@[simp] theorem State.setReg_c_l (v : Byte) : (s.setReg .c v).l = s.l := rfl
@[simp] theorem State.setReg_c_a (v : Byte) : (s.setReg .c v).a = s.a := rfl
@[simp] theorem State.setReg_d_b (v : Byte) : (s.setReg .d v).b = s.b := rfl
@[simp] theorem State.setReg_d_c (v : Byte) : (s.setReg .d v).c = s.c := rfl
@[simp] theorem State.setReg_d_d (v : Byte) : (s.setReg .d v).d = v := rfl
@[simp] theorem State.setReg_d_e (v : Byte) : (s.setReg .d v).e = s.e := rfl
@[simp] theorem State.setReg_d_h (v : Byte) : (s.setReg .d v).h = s.h := rfl
@[simp] theorem State.setReg_d_l (v : Byte) : (s.setReg .d v).l = s.l := rfl
@[simp] theorem State.setReg_d_a (v : Byte) : (s.setReg .d v).a = s.a := rfl
@[simp] theorem State.setReg_e_b (v : Byte) : (s.setReg .e v).b = s.b := rfl
@[simp] theorem State.setReg_e_c (v : Byte) : (s.setReg .e v).c = s.c := rfl
@[simp] theorem State.setReg_e_d (v : Byte) : (s.setReg .e v).d = s.d := rfl
@[simp] theorem State.setReg_e_e (v : Byte) : (s.setReg .e v).e = v := rfl
@[simp] theorem State.setReg_e_h (v : Byte) : (s.setReg .e v).h = s.h := rfl
@[simp] theorem State.setReg_e_l (v : Byte) : (s.setReg .e v).l = s.l := rfl
@[simp] theorem State.setReg_e_a (v : Byte) : (s.setReg .e v).a = s.a := rfl
@[simp] theorem State.setReg_h_b (v : Byte) : (s.setReg .h v).b = s.b := rfl
@[simp] theorem State.setReg_h_c (v : Byte) : (s.setReg .h v).c = s.c := rfl
@[simp] theorem State.setReg_h_d (v : Byte) : (s.setReg .h v).d = s.d := rfl
@[simp] theorem State.setReg_h_e (v : Byte) : (s.setReg .h v).e = s.e := rfl
@[simp] theorem State.setReg_h_h (v : Byte) : (s.setReg .h v).h = v := rfl
@[simp] theorem State.setReg_h_l (v : Byte) : (s.setReg .h v).l = s.l := rfl
@[simp] theorem State.setReg_h_a (v : Byte) : (s.setReg .h v).a = s.a := rfl
@[simp] theorem State.setReg_l_b (v : Byte) : (s.setReg .l v).b = s.b := rfl
@[simp] theorem State.setReg_l_c (v : Byte) : (s.setReg .l v).c = s.c := rfl
@[simp] theorem State.setReg_l_d (v : Byte) : (s.setReg .l v).d = s.d := rfl
@[simp] theorem State.setReg_l_e (v : Byte) : (s.setReg .l v).e = s.e := rfl
@[simp] theorem State.setReg_l_h (v : Byte) : (s.setReg .l v).h = s.h := rfl
@[simp] theorem State.setReg_l_l (v : Byte) : (s.setReg .l v).l = v := rfl
@[simp] theorem State.setReg_l_a (v : Byte) : (s.setReg .l v).a = s.a := rfl
@[simp] theorem State.setReg_a_b (v : Byte) : (s.setReg .a v).b = s.b := rfl
@[simp] theorem State.setReg_a_c (v : Byte) : (s.setReg .a v).c = s.c := rfl
@[simp] theorem State.setReg_a_d (v : Byte) : (s.setReg .a v).d = s.d := rfl
@[simp] theorem State.setReg_a_e (v : Byte) : (s.setReg .a v).e = s.e := rfl
@[simp] theorem State.setReg_a_h (v : Byte) : (s.setReg .a v).h = s.h := rfl
@[simp] theorem State.setReg_a_l (v : Byte) : (s.setReg .a v).l = s.l := rfl
@[simp] theorem State.setReg_a_a (v : Byte) : (s.setReg .a v).a = v := rfl

-- general registers under the updates that write none
@[simp] theorem State.reg_setSP (v : Word) (r : Reg8) : (s.setSP v).reg r = s.reg r := by
  cases r <;> rfl
@[simp] theorem State.reg_setFlags (f : Flags) (r : Reg8) : (s.setFlags f).reg r = s.reg r := by
  cases r <;> rfl
@[simp] theorem State.reg_setCarry (v : Bool) (r : Reg8) : (s.setCarry v).reg r = s.reg r := by
  cases r <;> rfl
@[simp] theorem State.reg_goto (t : Word) (r : Reg8) : (s.goto t).reg r = s.reg r := by
  cases r <;> rfl
@[simp] theorem State.reg_finish (n : Nat) (r : Reg8) : (s.finish n).reg r = s.reg r := by
  cases r <;> rfl
@[simp] theorem State.reg_drop16 (r : Reg8) : s.drop16.reg r = s.reg r := by
  cases r <;> rfl
@[simp] theorem State.reg_popPc (r : Reg8) : s.popPc.reg r = s.reg r := by
  cases r <;> rfl
@[simp] theorem State.reg_compareAcc (b : Byte) (r : Reg8) : (s.compareAcc b).reg r = s.reg r := by
  cases r <;> rfl
@[simp] theorem State.reg_ioRead (p : Byte) (r : Reg8) : (s.ioRead p).reg r = s.reg r := by
  cases r <;> rfl
@[simp] theorem State.reg_ioWrite (p v : Byte) (r : Reg8) : (s.ioWrite p v).reg r = s.reg r := by
  cases r <;> rfl
@[simp] theorem State.reg_takeEvent (r : Reg8) : s.takeEvent.reg r = s.reg r := by
  cases r <;> rfl
@[simp] theorem State.reg_clearBoundary (r : Reg8) : s.clearBoundary.reg r = s.reg r := by
  cases r <;> rfl
@[simp] theorem State.reg_memWrite (x : Word) (v : Byte) (r : Reg8) : (s.memWrite x v).reg r = s.reg r := by
  cases r <;> simp
@[simp] theorem State.reg_push16 (v : Word) (r : Reg8) : (s.push16 v).reg r = s.reg r := by
  cases r <;> simp
@[simp] theorem State.reg_call (x t : Word) (r : Reg8) : (s.call x t).reg r = s.reg r := by
  cases r <;> simp
@[simp] theorem State.reg_jumpIf (k : Cond) (t : Word) (r : Reg8) : (s.jumpIf k t).reg r = s.reg r := by
  cases r <;> simp
@[simp] theorem State.reg_callIf (k : Cond) (t : Word) (r : Reg8) : (s.callIf k t).reg r = s.reg r := by
  cases r <;> simp
@[simp] theorem State.reg_returnIf (k : Cond) (r : Reg8) : (s.returnIf k).reg r = s.reg r := by
  cases r <;> simp
@[simp] theorem State.reg_acceptInterrupt (i : Fin 8) (r : Reg8) : (s.acceptInterrupt i).reg r = s.reg r := by
  cases r <;> simp

-- bytes of memory and the map under the updates that leave memory alone
@[simp] theorem State.byteAt_setBC (v : Word) (x : Word) : (s.setBC v).byteAt x = s.byteAt x := rfl
@[simp] theorem State.kindAt_setBC (v : Word) (x : Word) : (s.setBC v).kindAt x = s.kindAt x := rfl
@[simp] theorem State.byteAt_setDE (v : Word) (x : Word) : (s.setDE v).byteAt x = s.byteAt x := rfl
@[simp] theorem State.kindAt_setDE (v : Word) (x : Word) : (s.setDE v).kindAt x = s.kindAt x := rfl
@[simp] theorem State.byteAt_setHL (v : Word) (x : Word) : (s.setHL v).byteAt x = s.byteAt x := rfl
@[simp] theorem State.kindAt_setHL (v : Word) (x : Word) : (s.setHL v).kindAt x = s.kindAt x := rfl
@[simp] theorem State.byteAt_setSP (v : Word) (x : Word) : (s.setSP v).byteAt x = s.byteAt x := rfl
@[simp] theorem State.kindAt_setSP (v : Word) (x : Word) : (s.setSP v).kindAt x = s.kindAt x := rfl
@[simp] theorem State.byteAt_setAcc (v : Byte) (f : Flags) (x : Word) : (s.setAcc v f).byteAt x = s.byteAt x := rfl
@[simp] theorem State.kindAt_setAcc (v : Byte) (f : Flags) (x : Word) : (s.setAcc v f).kindAt x = s.kindAt x := rfl
@[simp] theorem State.byteAt_setFlags (f : Flags) (x : Word) : (s.setFlags f).byteAt x = s.byteAt x := rfl
@[simp] theorem State.kindAt_setFlags (f : Flags) (x : Word) : (s.setFlags f).kindAt x = s.kindAt x := rfl
@[simp] theorem State.byteAt_setCarry (v : Bool) (x : Word) : (s.setCarry v).byteAt x = s.byteAt x := rfl
@[simp] theorem State.kindAt_setCarry (v : Bool) (x : Word) : (s.setCarry v).kindAt x = s.kindAt x := rfl
@[simp] theorem State.byteAt_goto (t : Word) (x : Word) : (s.goto t).byteAt x = s.byteAt x := rfl
@[simp] theorem State.kindAt_goto (t : Word) (x : Word) : (s.goto t).kindAt x = s.kindAt x := rfl
@[simp] theorem State.byteAt_finish (n : Nat) (x : Word) : (s.finish n).byteAt x = s.byteAt x := rfl
@[simp] theorem State.kindAt_finish (n : Nat) (x : Word) : (s.finish n).kindAt x = s.kindAt x := rfl
@[simp] theorem State.byteAt_drop16 (x : Word) : s.drop16.byteAt x = s.byteAt x := rfl
@[simp] theorem State.kindAt_drop16 (x : Word) : s.drop16.kindAt x = s.kindAt x := rfl
@[simp] theorem State.byteAt_popPc (x : Word) : s.popPc.byteAt x = s.byteAt x := rfl
@[simp] theorem State.kindAt_popPc (x : Word) : s.popPc.kindAt x = s.kindAt x := rfl
@[simp] theorem State.byteAt_addAcc (b : Byte) (cin : Bool) (x : Word) : (s.addAcc b cin).byteAt x = s.byteAt x := rfl
@[simp] theorem State.kindAt_addAcc (b : Byte) (cin : Bool) (x : Word) : (s.addAcc b cin).kindAt x = s.kindAt x := rfl
@[simp] theorem State.byteAt_subAcc (b : Byte) (bin : Bool) (x : Word) : (s.subAcc b bin).byteAt x = s.byteAt x := rfl
@[simp] theorem State.kindAt_subAcc (b : Byte) (bin : Bool) (x : Word) : (s.subAcc b bin).kindAt x = s.kindAt x := rfl
@[simp] theorem State.byteAt_compareAcc (b : Byte) (x : Word) : (s.compareAcc b).byteAt x = s.byteAt x := rfl
@[simp] theorem State.kindAt_compareAcc (b : Byte) (x : Word) : (s.compareAcc b).kindAt x = s.kindAt x := rfl
@[simp] theorem State.byteAt_logicAcc (v : Byte) (x : Word) : (s.logicAcc v).byteAt x = s.byteAt x := rfl
@[simp] theorem State.kindAt_logicAcc (v : Byte) (x : Word) : (s.logicAcc v).kindAt x = s.kindAt x := rfl
@[simp] theorem State.byteAt_addHL (v : Word) (x : Word) : (s.addHL v).byteAt x = s.byteAt x := rfl
@[simp] theorem State.kindAt_addHL (v : Word) (x : Word) : (s.addHL v).kindAt x = s.kindAt x := rfl
@[simp] theorem State.byteAt_ioRead (p : Byte) (x : Word) : (s.ioRead p).byteAt x = s.byteAt x := rfl
@[simp] theorem State.kindAt_ioRead (p : Byte) (x : Word) : (s.ioRead p).kindAt x = s.kindAt x := rfl
@[simp] theorem State.byteAt_ioWrite (p v : Byte) (x : Word) : (s.ioWrite p v).byteAt x = s.byteAt x := rfl
@[simp] theorem State.kindAt_ioWrite (p v : Byte) (x : Word) : (s.ioWrite p v).kindAt x = s.kindAt x := rfl
@[simp] theorem State.byteAt_takeEvent (x : Word) : s.takeEvent.byteAt x = s.byteAt x := rfl
@[simp] theorem State.kindAt_takeEvent (x : Word) : s.takeEvent.kindAt x = s.kindAt x := rfl
@[simp] theorem State.byteAt_clearBoundary (x : Word) : s.clearBoundary.byteAt x = s.byteAt x := rfl
@[simp] theorem State.kindAt_clearBoundary (x : Word) : s.clearBoundary.kindAt x = s.kindAt x := rfl
@[simp] theorem State.byteAt_setReg (r : Reg8) (v : Byte) (x : Word) :
    (s.setReg r v).byteAt x = s.byteAt x := by
  cases r <;> rfl
@[simp] theorem State.kindAt_setReg (r : Reg8) (v : Byte) (x : Word) :
    (s.setReg r v).kindAt x = s.kindAt x := by
  cases r <;> rfl

end Sys2Proof.Machine
end

