-- ==== Sys2Proof/Laws/Operands.lean ====
section
/-! SUPPORT. What the operand forms read and write: bytes and words, registers, pairs, memory. -/

namespace Sys2Proof.Machine

open Sys2Proof.Config (MemKind Access)

theorem join_toNat (h l : Byte) : (join h l).toNat = 256 * h.toNat + l.toNat := by
  have hl : l.toNat < 2 ^ 8 := l.isLt
  show (h ++ l : BitVec (8 + 8)).toNat = _
  rw [BitVec.toNat_append, Nat.shiftLeft_eq, Nat.mul_comm, ← Nat.two_pow_add_eq_or_of_lt hl]

theorem hi_toNat (v : Word) : (hi v).toNat = v.toNat / 256 := by
  have hv := v.isLt
  simp only [hi, BitVec.extractLsb'_toNat, Nat.shiftRight_eq_div_pow]
  omega

theorem lo_toNat (v : Word) : (lo v).toNat = v.toNat % 256 := by
  simp [lo]

@[simp] theorem hi_join (h l : Byte) : hi (join h l) = h := by
  apply BitVec.eq_of_toNat_eq
  have hl := l.isLt
  rw [hi_toNat, join_toNat]; omega

@[simp] theorem lo_join (h l : Byte) : lo (join h l) = l := by
  apply BitVec.eq_of_toNat_eq
  have hl := l.isLt
  rw [lo_toNat, join_toNat]; omega

@[simp] theorem join_hi_lo (v : Word) : join (hi v) (lo v) = v := by
  apply BitVec.eq_of_toNat_eq
  rw [join_toNat, hi_toNat, lo_toNat]; omega

theorem join_inj {h l h' l' : Byte} (e : join h l = join h' l') : h = h' ∧ l = l' := by
  have e1 := congrArg hi e
  have e2 := congrArg lo e
  simp only [hi_join, lo_join] at e1 e2
  exact ⟨e1, e2⟩

@[simp] theorem State.bc_setBC (s : State) (v : Word) : (s.setBC v).bc = v := by
  simp [State.bc]

@[simp] theorem State.de_setDE (s : State) (v : Word) : (s.setDE v).de = v := by
  simp [State.de]

@[simp] theorem State.hl_setHL (s : State) (v : Word) : (s.setHL v).hl = v := by
  simp [State.hl]

@[simp] theorem State.reg_setReg_same (s : State) (r : Reg8) (v : Byte) :
    (s.setReg r v).reg r = v := by
  cases r <;> rfl

theorem State.reg_setReg_other (s : State) {r q : Reg8} (v : Byte) (h : q ≠ r) :
    (s.setReg r v).reg q = s.reg q := by
  cases r <;> cases q <;> first | rfl | exact absurd rfl h

/-- Equal maps put the same at every address. -/
theorem State.kindAt_congr {s t : State} (h : t.memMap = s.memMap) (x : Word) :
    t.kindAt x = s.kindAt x := by
  simp [State.kindAt, h]

/-- Equal memories hold the same bytes. -/
theorem State.byteAt_congr {s t : State} (h : t.mem = s.mem) (x : Word) :
    t.byteAt x = s.byteAt x := by
  simp [State.byteAt, h]

/-- Where something is, a read gives the stored byte (20_memory.md R50). -/
theorem State.readAs_of_backed (s : State) (k : Access) {x : Word} (h : s.kindAt x ≠ .nothing) :
    s.readAs k x = s.byteAt x := by
  unfold State.readAs
  split
  · rename_i h'; exact absurd h' h
  · rfl

/-- A data read of RAM or ROM gives the stored byte (R50, R58). -/
theorem State.memRead_of_backed (s : State) {x : Word} (h : s.kindAt x ≠ .nothing) :
    s.memRead x = s.byteAt x := s.readAs_of_backed .data h

/-- An instruction byte fetched from RAM or ROM is the stored byte (R50, R65). -/
theorem State.fetchByte_of_backed (s : State) {x : Word} (h : s.kindAt x ≠ .nothing) :
    s.fetchByte x = s.byteAt x := s.readAs_of_backed .fetch h

/-- A read depends on the map, the memory and the draw index alone. -/
theorem State.readAs_congr {s t : State} (hm : t.memMap = s.memMap) (hb : t.mem = s.mem)
    (hd : t.drawIndex = s.drawIndex) (k : Access) (x : Word) : t.readAs k x = s.readAs k x := by
  simp [State.readAs, State.kindAt, State.byteAt, hm, hb, hd]

@[simp] theorem State.kindAt_memWrite (s : State) (x y : Word) (v : Byte) :
    (s.memWrite x v).kindAt y = s.kindAt y := by
  simp [State.kindAt]

theorem State.memWrite_of_ram (s : State) {x : Word} (v : Byte) (h : s.kindAt x = .ram) :
    s.memWrite x v = { s with mem := Memory.store s.mem x.toNat v } := by
  simp [State.memWrite, h]

theorem State.memWrite_of_not_ram (s : State) {x : Word} (v : Byte) (h : s.kindAt x ≠ .ram) :
    s.memWrite x v = s := by
  unfold State.memWrite
  split
  · rename_i h'; exact absurd h' h
  · rfl

/-- Everything a write of one byte does to the bytes of memory (20_memory.md R50, R59). -/
theorem State.byteAt_memWrite (s : State) (x y : Word) (v : Byte) :
    (s.memWrite x v).byteAt y = if y = x ∧ s.kindAt x = .ram then v else s.byteAt y := by
  by_cases h : s.kindAt x = .ram
  · rw [State.memWrite_of_ram s v h]
    by_cases hxy : y = x
    · subst hxy; simp [State.byteAt, h]
    · have hne : y.toNat ≠ x.toNat := fun e => hxy (BitVec.eq_of_toNat_eq e)
      simp [State.byteAt, hxy, Memory.load_store_other _ _ hne]
  · rw [State.memWrite_of_not_ram s v h]; simp [h]

theorem State.byteAt_memWrite_other (s : State) {x y : Word} (v : Byte) (h : y ≠ x) :
    (s.memWrite x v).byteAt y = s.byteAt y := by
  simp [State.byteAt_memWrite, h]

/-- A write keeps the canonical form of the memory. -/
theorem State.memWrite_wf (s : State) (x : Word) (v : Byte) (h : Memory.wf s.mem = true) :
    Memory.wf (s.memWrite x v).mem = true := by
  by_cases hk : s.kindAt x = .ram
  · rw [State.memWrite_of_ram s v hk]; exact Memory.wf_store _ _ _ h x.isLt
  · rw [State.memWrite_of_not_ram s v hk]; exact h

end Sys2Proof.Machine
end

