-- ==== Sys2Proof/Laws/Ops.lean ====
section
/-! SUPPORT. One lemma for each shared operation that says once what it can do. -/

namespace Sys2Proof.Machine

open Sys2Proof.Config (EnvEvent)

/-- A push writes the high byte at SP - 1, then the low byte at SP - 2, and moves SP (R13). -/
theorem State.push16_eq (s : State) (v : Word) :
    s.push16 v =
      ((s.memWrite (s.sp - 1) (hi v)).memWrite (s.sp - 1 - 1) (lo v)).setSP (s.sp - 1 - 1) := by
  unfold State.push16
  by_cases h1 : s.kindAt (s.sp - 1) = .ram <;> by_cases h2 : s.kindAt (s.sp - 1 - 1) = .ram <;>
    simp_all [State.memWrite, State.setSP, State.kindAt]

theorem State.sp_minus_ne (x : Word) : x - 1 ≠ x - 1 - 1 := by
  intro h; bv_omega

/-- The bytes of memory after a push: two stored bytes, as far as they fall in RAM. -/
theorem State.byteAt_push16 (s : State) (v : Word) (y : Word) :
    (s.push16 v).byteAt y =
      if y = s.sp - 1 - 1 ∧ s.kindAt (s.sp - 1 - 1) = .ram then lo v
      else if y = s.sp - 1 ∧ s.kindAt (s.sp - 1) = .ram then hi v
      else s.byteAt y := by
  rw [State.push16_eq]
  have h : ∀ t : State, ∀ w, (t.setSP w).byteAt y = t.byteAt y := fun _ _ => rfl
  rw [h, State.byteAt_memWrite, State.byteAt_memWrite]
  simp

/-- A push changes SP and memory only. -/
theorem State.push16_frame (s : State) (v : Word) :
    s.push16 v = { s with sp := s.sp - 1 - 1, mem := (s.push16 v).mem } := by
  rw [State.push16_eq]
  by_cases h1 : s.kindAt (s.sp - 1) = .ram <;> by_cases h2 : s.kindAt (s.sp - 1 - 1) = .ram <;>
    simp_all [State.memWrite, State.setSP, State.kindAt]

theorem State.push16_wf (s : State) (v : Word) (h : Memory.wf s.mem = true) :
    Memory.wf (s.push16 v).mem = true := by
  rw [State.push16_eq]
  exact State.memWrite_wf _ _ _ (State.memWrite_wf _ _ _ h)

/-- A register written changes that register only. -/
theorem State.setReg_frame (s : State) (r : Reg8) (v : Byte) :
    s.setReg r v = { s with
      a := (s.setReg r v).a, b := (s.setReg r v).b, c := (s.setReg r v).c, d := (s.setReg r v).d,
      e := (s.setReg r v).e, h := (s.setReg r v).h, l := (s.setReg r v).l } := by
  cases r <;> rfl

/-- Reading back what a push stored, when both bytes fall in RAM (R13). -/
theorem State.top16_push16 (s : State) (v : Word) (h1 : s.kindAt (s.sp - 1) = .ram)
    (h2 : s.kindAt (s.sp - 1 - 1) = .ram) : (s.push16 v).top16 = v := by
  have hsp : (s.push16 v).sp = s.sp - 1 - 1 := by rw [State.push16_frame]
  have hk : ∀ y, (s.push16 v).kindAt y = s.kindAt y := fun y => by
    rw [State.push16_frame]; rfl
  have e1 : s.sp - 1 - 1 + 1 = s.sp - 1 := by bv_omega
  have hne := State.sp_minus_ne s.sp
  unfold State.top16 State.memRead
  rw [State.readAs_of_backed _ _ (by rw [hsp, e1, hk, h1]; decide),
    State.readAs_of_backed _ _ (by rw [hsp, hk, h2]; decide), hsp, e1,
    State.byteAt_push16, State.byteAt_push16, if_neg (fun c => hne c.1), if_pos ⟨rfl, h1⟩,
    if_pos ⟨rfl, h2⟩, join_hi_lo]

/-- What happens at a boundary, in the order of 60_exceptions.md R308. -/
theorem State.boundary_cases (s : State) :
    (s.presented = .reset ∧ s.boundary = .reset) ∨
    (∃ i, s.presented = .request i ∧ s.iff = true ∧ s.intInhibit = false ∧
      s.boundary = .accept i) ∨
    (s.presented ≠ .reset ∧ (∀ i, s.boundary ≠ .accept i) ∧ s.halted = true ∧
      s.boundary = .stutter) ∨
    (s.presented ≠ .reset ∧ (∀ i, s.boundary ≠ .accept i) ∧ s.halted = false ∧
      s.boundary = .execute) := by
  cases h : s.presented <;> cases h1 : s.iff <;> cases h2 : s.intInhibit <;>
    cases h3 : s.halted <;> simp [State.boundary, *]

/-- A conditional jump goes to its target, or to the instruction after its three bytes (45_jump.md
R230). -/
theorem State.jumpIf_cases (s : State) (k : Cond) (target : Word) :
    (k.holds s.flags = true ∧ s.jumpIf k target = s.goto target) ∨
      (k.holds s.flags = false ∧ s.jumpIf k target = s.finish 3) := by
  unfold State.jumpIf
  split <;> simp_all

/-- A conditional call calls, or goes on after its three bytes (46_call_return.md R250). -/
theorem State.callIf_cases (s : State) (k : Cond) (target : Word) :
    (k.holds s.flags = true ∧ s.callIf k target = s.call (s.nextPc 3) target) ∨
      (k.holds s.flags = false ∧ s.callIf k target = s.finish 3) := by
  unfold State.callIf
  split <;> simp_all

/-- A conditional return returns, or goes on after its one byte (R250). -/
theorem State.returnIf_cases (s : State) (k : Cond) :
    (k.holds s.flags = true ∧ s.returnIf k = s.popPc) ∨
      (k.holds s.flags = false ∧ s.returnIf k = s.finish 1) := by
  unfold State.returnIf
  split <;> simp_all

/-- The add group changes A and the flags only (42_alu8.md R151). -/
theorem State.addAcc_eq (s : State) (b : Byte) (cin : Bool) :
    s.addAcc b cin =
      { s with a := (add8 s.a b cin).res, flags := s.flags.ofAlu (add8 s.a b cin) } := rfl

/-- The subtract group changes A and the flags only (R152). -/
theorem State.subAcc_eq (s : State) (b : Byte) (bin : Bool) :
    s.subAcc b bin =
      { s with
        a := (sub8 Config.subH s.a b bin).res
        flags := s.flags.ofAlu (sub8 Config.subH s.a b bin) } := rfl

/-- A compare changes the flags only (R152). -/
theorem State.compareAcc_eq (s : State) (b : Byte) :
    s.compareAcc b = { s with flags := s.flags.ofAlu (sub8 Config.subH s.a b false) } := rfl

/-- The logic group changes A and the flags only (R153). -/
theorem State.logicAcc_eq (s : State) (v : Byte) :
    s.logicAcc v = { s with a := v, flags := s.flags.ofLogic v } := rfl

/-- DAD leaves HL at the sum modulo 65536 (43_arith16.md R200). -/
theorem State.hl_addHL (s : State) (v : Word) : (s.addHL v).hl = s.hl + v := by
  apply BitVec.eq_of_toNat_eq
  simp [State.hl, BitVec.toNat_add]

/-- Taking an interrupt is a push of pc with IFF and halted cleared and pc at the restart address
(60_exceptions.md R307). -/
theorem State.acceptInterrupt_eq (s : State) (i : Fin 8) :
    s.acceptInterrupt i =
      (({ s with iff := false, halted := false } : State).push16 s.pc).goto (restartAddress i.val) :=
  rfl

/-- The bytes of memory after a load from outside. -/
theorem State.byteAt_loadByte (s : State) (x : Word) (v : Byte) (y : Word) :
    (s.loadByte x v).byteAt y = if y = x then v else s.byteAt y := by
  by_cases h : y = x
  · subst h; simp [State.byteAt, State.loadByte]
  · have hne : y.toNat ≠ x.toNat := fun e => h (BitVec.eq_of_toNat_eq e)
    simp [State.byteAt, State.loadByte, h, Memory.load_store_other _ _ hne]

/-- A byte loaded from outside is there to be fetched. -/
theorem State.kindAt_loadByte_same (s : State) (x : Word) (v : Byte) :
    (s.loadByte x v).kindAt x ≠ .nothing := by
  unfold State.loadByte State.kindAt
  cases h : kindIn s.memMap x <;> simp [kindIn, h]

end Sys2Proof.Machine
end

