-- ==== Sys2Proof/Laws/Claims.lean ====
section
/-! SUPPORT. What the shared operations do in the terms the claims use: the three flags of a result, one
and two stored bytes, the frame of a push. -/

namespace Sys2Proof.Machine

theorem sub_one_sub_one (x : Word) : x - 1 - 1 = x - 2 := by bv_omega

theorem add_one_add_one (x : Word) : x + 1 + 1 = x + 2 := by bv_omega

theorem ne_add_one (x : Word) : x ≠ x + 1 := by bv_omega

theorem sub_one_ne_sub_two (x : Word) : x - 1 ≠ x - 2 := by bv_omega

theorem parity8_iff (v : Byte) : parity8 v = true ↔ EvenOnes v := by
  unfold EvenOnes; revert v; decide

/-- Flags that hold SZP of a value follow from it (00_scope.md R10). -/
theorem szpFrom_of {f : Flags} {v : Byte} (h1 : f.s = v.getLsbD 7) (h2 : f.z = decide (v = 0x00#8))
    (h3 : f.p = parity8 v) : SzpFrom f v := by
  refine ⟨by rw [h1, getLsbD_seven]; simp, ?_, by rw [h3]; exact parity8_iff v⟩
  simp [h2, ← BitVec.toNat_inj]

theorem szpFrom_szp (f : Flags) (v : Byte) : SzpFrom (f.szp v) v := szpFrom_of rfl rfl rfl

theorem szpFrom_ofAlu (f : Flags) (o : AluOut) : SzpFrom (f.ofAlu o) o.res := szpFrom_of rfl rfl rfl

theorem szpFrom_ofStep (f : Flags) (o : AluOut) : SzpFrom (f.ofStep o) o.res :=
  szpFrom_of rfl rfl rfl

theorem szpFrom_ofLogic (f : Flags) (v : Byte) : SzpFrom (f.ofLogic v) v := szpFrom_of rfl rfl rfl

/-- The half carry of SUB8 under the machine's `SUB_H` (R12). -/
theorem halfOfBorrow_sub8 (a b : Byte) (bin : Bool) :
    HalfOfBorrow (sub8 Config.subH a b bin).half
      (a.toNat % 16 < b.toNat % 16 + bin.toNat) := by
  rw [(sub8_spec Config.subH a b bin).2.2]
  constructor <;> intro h <;> rw [h] <;> simp

/-- A write of one byte stores that byte and no other. -/
theorem storesByte_memWrite (s : State) (x : Word) (v : Byte) : StoresByte s (s.memWrite x v) x v :=
  ⟨fun h => by simp [State.byteAt_memWrite, h], fun y h => by simp [State.byteAt_memWrite, h]⟩

/-- Two writes at different addresses store those two bytes and no other. -/
theorem storesTwoBytes_memWrite (s : State) {x y : Word} (v w : Byte) (h : x ≠ y) :
    StoresTwoBytes s ((s.memWrite x v).memWrite y w) x v y w := by
  refine ⟨fun hx => ?_, fun hy => ?_, fun z h1 h2 => ?_⟩ <;> simp_all [State.byteAt_memWrite]

theorem State.memRead_memWrite_other (s : State) {x y : Word} (v : Byte) (h : y ≠ x) :
    (s.memWrite x v).memRead y = s.memRead y := by
  simp [State.memRead, State.readAs, State.byteAt_memWrite_other s v h]

@[simp] theorem State.memRead_setReg (s : State) (r : Reg8) (v : Byte) (x : Word) :
    (s.setReg r v).memRead x = s.memRead x := by
  simp [State.memRead, State.readAs]

/-- A push stores the two halves of its word and no other byte (R13). -/
theorem storesTwoBytes_push16 (s : State) (v : Word) :
    StoresTwoBytes s (s.push16 v) (s.sp - 1) (hi v) (s.sp - 2) (lo v) := by
  rw [State.push16_eq, sub_one_sub_one]
  exact storesTwoBytes_memWrite s (hi v) (lo v) (sub_one_ne_sub_two s.sp)

theorem State.push16_sp (s : State) (v : Word) : (s.push16 v).sp = s.sp - 2 := by
  rw [State.push16_frame]; exact sub_one_sub_one _

theorem untouched_push16 (s : State) (v : Word) : Untouched s (s.push16 v) [] := by
  exact ⟨fun q _ => by simp, by simp, by simp, by simp, by simp, by simp, by simp⟩

theorem Untouched.goto {s t : State} {w : List Reg8} (target : Word) (h : Untouched s t w) :
    Untouched s (t.goto target) w :=
  ⟨fun q hq => by simp [h.regs q hq], h.iff, h.halted, h.memMap, h.ioAnswers, h.history, h.events⟩

theorem Untouched.finish {s t : State} {w : List Reg8} (n : Nat) (h : Untouched s t w) :
    Untouched s (t.finish n) w := h.goto _

theorem onlyRegs_goto (s : State) (target : Word) : OnlyRegs s (s.goto target) [] :=
  ⟨⟨fun q _ => by simp, rfl, rfl, rfl, rfl, rfl, rfl⟩, rfl, rfl, fun _ => rfl⟩

/-- What a pop finds after a push, from any state with SP where the push left it, the same map, and the
two bytes, in RAM, undisturbed (R13). -/
theorem State.top16_of_undisturbed {s u : State} {v : Word} (h1 : s.kindAt (s.sp - 1) = .ram)
    (h2 : s.kindAt (s.sp - 2) = .ram) (hsp : u.sp = (s.push16 v).sp)
    (hm : u.memMap = (s.push16 v).memMap)
    (b1 : u.byteAt (s.sp - 1) = (s.push16 v).byteAt (s.sp - 1))
    (b2 : u.byteAt (s.sp - 2) = (s.push16 v).byteAt (s.sp - 2)) : u.top16 = v := by
  have hp := State.top16_push16 s v h1 (by rw [sub_one_sub_one]; exact h2)
  have e1 : s.sp - 2 + 1 = s.sp - 1 := by bv_omega
  have hk : ∀ y, u.kindAt y = s.kindAt y := fun y => by
    rw [State.kindAt_congr hm, State.kindAt_congr (State.push16_memMap s v)]
  have hk' : ∀ y, (s.push16 v).kindAt y = s.kindAt y := fun y =>
    State.kindAt_congr (State.push16_memMap s v) y
  rw [← hp]
  simp only [State.top16, State.memRead]
  rw [hsp, State.push16_sp, e1, State.readAs_of_backed _ _ (by rw [hk, h1]; decide),
    State.readAs_of_backed _ _ (by rw [hk, h2]; decide),
    State.readAs_of_backed _ _ (by rw [hk', h1]; decide),
    State.readAs_of_backed _ _ (by rw [hk', h2]; decide), b1, b2]

/-- The column "true when" says what the condition helper tests (00_scope.md R14). -/
theorem condTrue_iff_holds (k : Cond) (f : Flags) : CondTrue k f ↔ k.holds f = true := by
  cases k <;> simp [CondTrue, Cond.holds]

end Sys2Proof.Machine
end

