-- ==== Sys2Proof/Laws/Decode.lean ====
section
/-! SUPPORT. The small facts about register codes, bit fields and rows that statements about decoding
rest on. -/

namespace Sys2Proof

theorem Reg8.ofCode_code (r : Reg8) : Reg8.ofCode r.code = some r := by cases r <;> rfl

theorem Reg8.code_of_ofCode {v : BitVec 3} {r : Reg8} (h : Reg8.ofCode v = some r) : r.code = v := by
  revert h; cases r <;> revert v <;> decide

/-- An opcode byte is the pattern of its three fields (30_encoding.md R81). -/
theorem pattern_fields : ∀ op : Byte, pattern (op.extractLsb' 6 2) (midField op) (lowField op) = op := by
  decide

theorem midField_pattern : ∀ (q : BitVec 2) (m l : BitVec 3), midField (pattern q m l) = m := by
  decide

theorem lowField_pattern : ∀ (q : BitVec 2) (m l : BitVec 3), lowField (pattern q m l) = l := by
  decide

/-- A row that fixes all eight bits reads one opcode byte only. -/
theorem eq_of_full_mask {op v : Byte} (h : op &&& 0xFF = v) : op = v := by
  have hff : ∀ op : Byte, op &&& 0xFF = op := by decide
  rw [← h, hff]

/-- What the decoder reads, some row reads. -/
theorem exists_row_of_decodeInstr {op b2 b3 : Byte} {i : Instr} (h : decodeInstr op b2 b3 = some i) :
    ∃ row ∈ opcodeRows, row.read op b2 (Machine.join b3 b2) = some i := by
  unfold decodeInstr at h
  rw [List.findSome?_eq_some_iff] at h
  obtain ⟨l1, row, l2, hl, hr, _⟩ := h
  exact ⟨row, by rw [hl]; simp, hr⟩

end Sys2Proof
end

