-- ==== Sys2Proof/Laws/PerInstr.lean ====
section
/-! SUPPORT. One lemma for each constructor: an instruction's bytes are as many as its length, and the
opcode byte alone tells that length (30_encoding.md R80). -/

namespace Sys2Proof.Laws.EncodeLength

/-- The encoder writes `length` bytes, and the first one has that length by the patterns of R80. -/
def Statement (i : Instr) : Prop :=
  (encode i).length = i.length ∧ ∀ op ∈ (encode i).head?, lengthOfOpcode op = i.length

theorem one_byte {i : Instr} {op : Byte} (h : encode i = [op]) (hl : i.length = 1)
    (ho : lengthOfOpcode op = 1) : Statement i := by
  refine ⟨by rw [h, hl]; rfl, fun x hx => ?_⟩
  rw [h] at hx
  cases hx
  rw [hl, ho]

theorem two_bytes {i : Instr} {op n : Byte} (h : encode i = [op, n]) (hl : i.length = 2)
    (ho : lengthOfOpcode op = 2) : Statement i := by
  refine ⟨by rw [h, hl]; rfl, fun x hx => ?_⟩
  rw [h] at hx
  cases hx
  rw [hl, ho]

theorem three_bytes {i : Instr} {op b2 b3 : Byte} (h : encode i = [op, b2, b3]) (hl : i.length = 3)
    (ho : lengthOfOpcode op = 3) : Statement i := by
  refine ⟨by rw [h, hl]; rfl, fun x hx => ?_⟩
  rw [h] at hx
  cases hx
  rw [hl, ho]

theorem movRR (rd : Reg8) (rs : Reg8) : Statement (.movRR rd rs) :=
  one_byte rfl rfl (by cases rd <;> cases rs <;> rfl)
theorem mviR (rd : Reg8) (n : Byte) : Statement (.mviR rd n) :=
  two_bytes rfl rfl (by cases rd <;> rfl)
theorem movRM (rd : Reg8) : Statement (.movRM rd) := one_byte rfl rfl (by cases rd <;> rfl)
theorem movMR (rs : Reg8) : Statement (.movMR rs) := one_byte rfl rfl (by cases rs <;> rfl)
theorem mviM (n : Byte) : Statement (.mviM n) := two_bytes rfl rfl rfl
theorem ldaxB : Statement .ldaxB := one_byte rfl rfl rfl
theorem ldaxD : Statement .ldaxD := one_byte rfl rfl rfl
theorem lda (nn : Word) : Statement (.lda nn) := three_bytes rfl rfl rfl
theorem staxB : Statement .staxB := one_byte rfl rfl rfl
theorem staxD : Statement .staxD := one_byte rfl rfl rfl
theorem sta (nn : Word) : Statement (.sta nn) := three_bytes rfl rfl rfl
theorem lxiB (nn : Word) : Statement (.lxiB nn) := three_bytes rfl rfl rfl
theorem lxiD (nn : Word) : Statement (.lxiD nn) := three_bytes rfl rfl rfl
theorem lxiH (nn : Word) : Statement (.lxiH nn) := three_bytes rfl rfl rfl
theorem lxiSP (nn : Word) : Statement (.lxiSP nn) := three_bytes rfl rfl rfl
theorem lhld (nn : Word) : Statement (.lhld nn) := three_bytes rfl rfl rfl
theorem shld (nn : Word) : Statement (.shld nn) := three_bytes rfl rfl rfl
theorem sphl : Statement .sphl := one_byte rfl rfl rfl
theorem xchg : Statement .xchg := one_byte rfl rfl rfl
theorem xthl : Statement .xthl := one_byte rfl rfl rfl
theorem pushB : Statement .pushB := one_byte rfl rfl rfl
theorem pushD : Statement .pushD := one_byte rfl rfl rfl
theorem pushH : Statement .pushH := one_byte rfl rfl rfl
theorem pushPSW : Statement .pushPSW := one_byte rfl rfl rfl
theorem popB : Statement .popB := one_byte rfl rfl rfl
theorem popD : Statement .popD := one_byte rfl rfl rfl
theorem popH : Statement .popH := one_byte rfl rfl rfl
theorem popPSW : Statement .popPSW := one_byte rfl rfl rfl
theorem addR (rs : Reg8) : Statement (.addR rs) := one_byte rfl rfl (by cases rs <;> rfl)
theorem adi (n : Byte) : Statement (.adi n) := two_bytes rfl rfl rfl
theorem addM : Statement .addM := one_byte rfl rfl rfl
theorem adcR (rs : Reg8) : Statement (.adcR rs) := one_byte rfl rfl (by cases rs <;> rfl)
theorem aci (n : Byte) : Statement (.aci n) := two_bytes rfl rfl rfl
theorem adcM : Statement .adcM := one_byte rfl rfl rfl
theorem subR (rs : Reg8) : Statement (.subR rs) := one_byte rfl rfl (by cases rs <;> rfl)
theorem sui (n : Byte) : Statement (.sui n) := two_bytes rfl rfl rfl
theorem subM : Statement .subM := one_byte rfl rfl rfl
theorem sbbR (rs : Reg8) : Statement (.sbbR rs) := one_byte rfl rfl (by cases rs <;> rfl)
theorem sbi (n : Byte) : Statement (.sbi n) := two_bytes rfl rfl rfl
theorem sbbM : Statement .sbbM := one_byte rfl rfl rfl
theorem cmpR (rs : Reg8) : Statement (.cmpR rs) := one_byte rfl rfl (by cases rs <;> rfl)
theorem cpi (n : Byte) : Statement (.cpi n) := two_bytes rfl rfl rfl
theorem cmpM : Statement .cmpM := one_byte rfl rfl rfl
theorem anaR (rs : Reg8) : Statement (.anaR rs) := one_byte rfl rfl (by cases rs <;> rfl)
theorem ani (n : Byte) : Statement (.ani n) := two_bytes rfl rfl rfl
theorem anaM : Statement .anaM := one_byte rfl rfl rfl
theorem oraR (rs : Reg8) : Statement (.oraR rs) := one_byte rfl rfl (by cases rs <;> rfl)
theorem ori (n : Byte) : Statement (.ori n) := two_bytes rfl rfl rfl
theorem oraM : Statement .oraM := one_byte rfl rfl rfl
theorem xraR (rs : Reg8) : Statement (.xraR rs) := one_byte rfl rfl (by cases rs <;> rfl)
theorem xri (n : Byte) : Statement (.xri n) := two_bytes rfl rfl rfl
theorem xraM : Statement .xraM := one_byte rfl rfl rfl
theorem inrR (rd : Reg8) : Statement (.inrR rd) := one_byte rfl rfl (by cases rd <;> rfl)
theorem inrM : Statement .inrM := one_byte rfl rfl rfl
theorem dcrR (rd : Reg8) : Statement (.dcrR rd) := one_byte rfl rfl (by cases rd <;> rfl)
theorem dcrM : Statement .dcrM := one_byte rfl rfl rfl
theorem daa : Statement .daa := one_byte rfl rfl rfl
theorem cma : Statement .cma := one_byte rfl rfl rfl
theorem dadB : Statement .dadB := one_byte rfl rfl rfl
theorem dadD : Statement .dadD := one_byte rfl rfl rfl
theorem dadH : Statement .dadH := one_byte rfl rfl rfl
theorem dadSP : Statement .dadSP := one_byte rfl rfl rfl
theorem inxB : Statement .inxB := one_byte rfl rfl rfl
theorem inxD : Statement .inxD := one_byte rfl rfl rfl
theorem inxH : Statement .inxH := one_byte rfl rfl rfl
theorem inxSP : Statement .inxSP := one_byte rfl rfl rfl
theorem dcxB : Statement .dcxB := one_byte rfl rfl rfl
theorem dcxD : Statement .dcxD := one_byte rfl rfl rfl
theorem dcxH : Statement .dcxH := one_byte rfl rfl rfl
theorem dcxSP : Statement .dcxSP := one_byte rfl rfl rfl
theorem cmc : Statement .cmc := one_byte rfl rfl rfl
theorem stc : Statement .stc := one_byte rfl rfl rfl
theorem nop : Statement .nop := one_byte rfl rfl rfl
theorem hlt : Statement .hlt := one_byte rfl rfl rfl
theorem di : Statement .di := one_byte rfl rfl rfl
theorem ei : Statement .ei := one_byte rfl rfl rfl
theorem jmp (nn : Word) : Statement (.jmp nn) := three_bytes rfl rfl rfl
theorem jnz (nn : Word) : Statement (.jnz nn) := three_bytes rfl rfl rfl
theorem jz (nn : Word) : Statement (.jz nn) := three_bytes rfl rfl rfl
theorem jnc (nn : Word) : Statement (.jnc nn) := three_bytes rfl rfl rfl
theorem jc (nn : Word) : Statement (.jc nn) := three_bytes rfl rfl rfl
theorem jpo (nn : Word) : Statement (.jpo nn) := three_bytes rfl rfl rfl
theorem jpe (nn : Word) : Statement (.jpe nn) := three_bytes rfl rfl rfl
theorem jp (nn : Word) : Statement (.jp nn) := three_bytes rfl rfl rfl
theorem jm (nn : Word) : Statement (.jm nn) := three_bytes rfl rfl rfl
theorem pchl : Statement .pchl := one_byte rfl rfl rfl
theorem call (nn : Word) : Statement (.call nn) := three_bytes rfl rfl rfl
theorem cnz (nn : Word) : Statement (.cnz nn) := three_bytes rfl rfl rfl
theorem cz (nn : Word) : Statement (.cz nn) := three_bytes rfl rfl rfl
theorem cnc (nn : Word) : Statement (.cnc nn) := three_bytes rfl rfl rfl
theorem cc (nn : Word) : Statement (.cc nn) := three_bytes rfl rfl rfl
theorem cpo (nn : Word) : Statement (.cpo nn) := three_bytes rfl rfl rfl
theorem cpe (nn : Word) : Statement (.cpe nn) := three_bytes rfl rfl rfl
theorem cp (nn : Word) : Statement (.cp nn) := three_bytes rfl rfl rfl
theorem cm (nn : Word) : Statement (.cm nn) := three_bytes rfl rfl rfl
theorem ret : Statement .ret := one_byte rfl rfl rfl
theorem rnz : Statement .rnz := one_byte rfl rfl rfl
theorem rz : Statement .rz := one_byte rfl rfl rfl
theorem rnc : Statement .rnc := one_byte rfl rfl rfl
theorem rc : Statement .rc := one_byte rfl rfl rfl
theorem rpo : Statement .rpo := one_byte rfl rfl rfl
theorem rpe : Statement .rpe := one_byte rfl rfl rfl
theorem rp : Statement .rp := one_byte rfl rfl rfl
theorem rm : Statement .rm := one_byte rfl rfl rfl
theorem rst (i : Nat) : Statement (.rst i) :=
  one_byte rfl rfl (by generalize BitVec.ofNat 3 i = v; revert v; decide)
theorem rlc : Statement .rlc := one_byte rfl rfl rfl
theorem ral : Statement .ral := one_byte rfl rfl rfl
theorem rrc : Statement .rrc := one_byte rfl rfl rfl
theorem rar : Statement .rar := one_byte rfl rfl rfl
theorem inPort (n : Byte) : Statement (.inPort n) := two_bytes rfl rfl rfl
theorem outPort (n : Byte) : Statement (.outPort n) := two_bytes rfl rfl rfl

end Sys2Proof.Laws.EncodeLength
end

