-- ==== Sys2Proof/Laws/Step.lean ====
section
/-! SUPPORT. What one step can do, said once (60_exceptions.md R308, R323), and the unfolding of a run. -/

namespace Sys2Proof.Machine

/-- The boundary executes exactly when its conditions on halted, IFF, int_inhibit and the presented event
hold. -/
theorem boundary_eq_execute_iff (s : State) : s.boundary = .execute ↔ ExecutesNext s := by
  constructor
  · intro h
    rcases s.boundary_cases with ⟨_, hb⟩ | ⟨i, _, _, _, hb⟩ | ⟨_, _, _, hb⟩ | ⟨hr, ha, hh, _⟩
    · rw [hb] at h; cases h
    · rw [hb] at h; cases h
    · rw [hb] at h; cases h
    · refine ⟨hh, hr, fun i hi => ?_⟩
      have hi' := ha i
      cases h1 : s.iff <;> cases h2 : s.intInhibit <;> simp_all [State.boundary]
  · rintro ⟨hh, hr, ha⟩
    rcases s.boundary_cases with ⟨h, _⟩ | ⟨i, hp, h1, h2, _⟩ | ⟨_, _, h, _⟩ | ⟨_, _, _, hb⟩
    · exact absurd h hr
    · simp_all
    · simp_all
    · exact hb

/-- A step that goes on is a reset, an interrupt acceptance, a stutter or one instruction. -/
theorem step_next_cases {s t : State} (h : step s = .next t) :
    (s.boundary = .reset ∧ t = s.takeEvent.applyReset) ∨
    (∃ i, s.boundary = .accept i ∧ t = s.takeEvent.acceptInterrupt i) ∨
    (s.boundary = .stutter ∧ t = s.takeEvent) ∨
    (∃ i, s.boundary = .execute ∧ s.fetch = some i ∧ exec i s.takeEvent = .next t) := by
  unfold step at h
  split at h
  · injection h with h; exact .inl ⟨‹_›, h.symm⟩
  · injection h with h; exact .inr (.inl ⟨_, ‹_›, h.symm⟩)
  · injection h with h; exact .inr (.inr (.inl ⟨‹_›, h.symm⟩))
  · split at h
    · exact .inr (.inr (.inr ⟨_, ‹_›, ‹_›, h⟩))
    · cases h

/-- A step that faults has fetched a byte that is no opcode, or an instruction whose meaning faults. -/
theorem step_fault_cases {s : State} {r : Fault} (h : step s = .fault r) :
    s.boundary = .execute ∧
      ((s.fetch = none ∧ r = .illegalOpcode (s.fetchByte s.pc)) ∨
        ∃ i, s.fetch = some i ∧ exec i s.takeEvent = .fault r) := by
  unfold step at h
  split at h
  · cases h
  · cases h
  · cases h
  · refine ⟨‹_›, ?_⟩
    split at h
    · exact .inr ⟨_, ‹_›, h⟩
    · injection h with h; exact .inl ⟨‹_›, h.symm⟩

/-- A run of `k + 1` steps whose first step goes on. -/
theorem run_succ_of_step {k : Nat} {s t : State} (h : step s = .next t) :
    Host.Core.run core (k + 1) s = Host.Core.run core k t := by
  have e := Host.Core.run.eq_2 core s k
  rw [show core.step s = .next t from h] at e
  exact e

/-- A write changes no byte that is not in RAM (20_memory.md R59). -/
theorem State.byteAt_memWrite_of_not_ram (s : State) (x : Word) (v : Byte) {y : Word}
    (h : s.kindAt y ≠ .ram) : (s.memWrite x v).byteAt y = s.byteAt y := by
  rw [State.byteAt_memWrite, if_neg]
  rintro ⟨rfl, h'⟩
  exact h h'

/-- A push changes no byte that is not in RAM (R59). -/
theorem State.byteAt_push16_of_not_ram (s : State) (v : Word) {y : Word} (h : s.kindAt y ≠ .ram) :
    (s.push16 v).byteAt y = s.byteAt y := by
  rw [State.byteAt_push16, if_neg, if_neg]
  · rintro ⟨rfl, h'⟩; exact h h'
  · rintro ⟨rfl, h'⟩; exact h h'

end Sys2Proof.Machine
end

