-- ==== Sys2Proof/Tests/Slice0.lean ====
section
/-! SUPPORT. The model's own tests: the well-formedness smoke, the decoding of written-out words, one step
on small states (expected results from spec/95_test_vectors.md), and a state for the hypotheses of every
statement. -/

namespace Sys2Proof.Tests

open Sys2Proof.Machine
open Sys2Proof.Config (EnvEvent IoEvent MemKind Region SubH)

/-! ## Well-formedness: the one check refuses -/

theorem test_wellFormed_refuses_rst_8 : Instr.wellFormed (.rst 8) = false := by decide
theorem test_wellFormed_accepts_rst_0_and_7 :
    Instr.WellFormed (.rst 0) ∧ Instr.WellFormed (.rst 7) := by decide

/-! ## Decoding: a word of every row, from the "Encoding" line of its rule -/

/-- Every listed byte string decodes to the instruction beside it, with nothing left over. -/
def decodesAs (l : List (List Byte × Instr)) : Bool :=
  l.all fun p => decide ((decode p.1).toOption = some (p.2, []))

/-- One word for each row of 40_move8.md. -/
theorem test_decode_move8 : decodesAs [
    ([0x47], .movRR .b .a),
    ([0x6C], .movRR .l .h),
    ([0x16, 0x12], .mviR .d 0x12),
    ([0x3E, 0x12], .mviR .a 0x12),
    ([0x56], .movRM .d),
    ([0x7E], .movRM .a),
    ([0x72], .movMR .d),
    ([0x77], .movMR .a),
    ([0x36, 0x12], .mviM 0x12),
    ([0x0A], .ldaxB),
    ([0x1A], .ldaxD),
    ([0x3A, 0x34, 0x12], .lda 0x1234),
    ([0x02], .staxB),
    ([0x12], .staxD),
    ([0x32, 0x34, 0x12], .sta 0x1234)] = true := by decide +kernel

/-- One word for each row of 41_move16.md. -/
theorem test_decode_move16 : decodesAs [
    ([0x01, 0x34, 0x12], .lxiB 0x1234),
    ([0x11, 0x34, 0x12], .lxiD 0x1234),
    ([0x21, 0x34, 0x12], .lxiH 0x1234),
    ([0x31, 0x34, 0x12], .lxiSP 0x1234),
    ([0x2A, 0x34, 0x12], .lhld 0x1234),
    ([0x22, 0x34, 0x12], .shld 0x1234),
    ([0xF9], .sphl),
    ([0xEB], .xchg),
    ([0xE3], .xthl),
    ([0xC5], .pushB),
    ([0xD5], .pushD),
    ([0xE5], .pushH),
    ([0xF5], .pushPSW),
    ([0xC1], .popB),
    ([0xD1], .popD),
    ([0xE1], .popH),
    ([0xF1], .popPSW)] = true := by decide +kernel

/-- One word for each row of 42_alu8.md. -/
theorem test_decode_alu8 : decodesAs [
    ([0x82], .addR .d),
    ([0x87], .addR .a),
    ([0xC6, 0x12], .adi 0x12),
    ([0x86], .addM),
    ([0x8A], .adcR .d),
    ([0x8F], .adcR .a),
    ([0xCE, 0x12], .aci 0x12),
    ([0x8E], .adcM),
    ([0x92], .subR .d),
    ([0x97], .subR .a),
    ([0xD6, 0x12], .sui 0x12),
    ([0x96], .subM),
    ([0x9A], .sbbR .d),
    ([0x9F], .sbbR .a),
    ([0xDE, 0x12], .sbi 0x12),
    ([0x9E], .sbbM),
    ([0xBA], .cmpR .d),
    ([0xBF], .cmpR .a),
    ([0xFE, 0x12], .cpi 0x12),
    ([0xBE], .cmpM),
    ([0xA2], .anaR .d),
    ([0xA7], .anaR .a),
    ([0xE6, 0x12], .ani 0x12),
    ([0xA6], .anaM),
    ([0xB2], .oraR .d),
    ([0xB7], .oraR .a),
    ([0xF6, 0x12], .ori 0x12),
    ([0xB6], .oraM),
    ([0xAA], .xraR .d),
    ([0xAF], .xraR .a),
    ([0xEE, 0x12], .xri 0x12),
    ([0xAE], .xraM),
    ([0x14], .inrR .d),
    ([0x3C], .inrR .a),
    ([0x34], .inrM),
    ([0x15], .dcrR .d),
    ([0x3D], .dcrR .a),
    ([0x35], .dcrM),
    ([0x27], .daa),
    ([0x2F], .cma)] = true := by decide +kernel

/-- One word for each row of 43_arith16.md. -/
theorem test_decode_arith16 : decodesAs [
    ([0x09], .dadB),
    ([0x19], .dadD),
    ([0x29], .dadH),
    ([0x39], .dadSP),
    ([0x03], .inxB),
    ([0x13], .inxD),
    ([0x23], .inxH),
    ([0x33], .inxSP),
    ([0x0B], .dcxB),
    ([0x1B], .dcxD),
    ([0x2B], .dcxH),
    ([0x3B], .dcxSP)] = true := by decide +kernel

/-- One word for each row of 44_cpu_control.md. -/
theorem test_decode_control : decodesAs [
    ([0x3F], .cmc),
    ([0x37], .stc),
    ([0x00], .nop),
    ([0x76], .hlt),
    ([0xF3], .di),
    ([0xFB], .ei)] = true := by decide +kernel

/-- One word for each row of 45_jump.md. -/
theorem test_decode_jumps : decodesAs [
    ([0xC3, 0x34, 0x12], .jmp 0x1234),
    ([0xC2, 0x34, 0x12], .jnz 0x1234),
    ([0xCA, 0x34, 0x12], .jz 0x1234),
    ([0xD2, 0x34, 0x12], .jnc 0x1234),
    ([0xDA, 0x34, 0x12], .jc 0x1234),
    ([0xE2, 0x34, 0x12], .jpo 0x1234),
    ([0xEA, 0x34, 0x12], .jpe 0x1234),
    ([0xF2, 0x34, 0x12], .jp 0x1234),
    ([0xFA, 0x34, 0x12], .jm 0x1234),
    ([0xE9], .pchl)] = true := by decide +kernel

/-- One word for each row of 46_call_return.md. -/
theorem test_decode_calls_returns_rst : decodesAs [
    ([0xCD, 0x34, 0x12], .call 0x1234),
    ([0xC4, 0x34, 0x12], .cnz 0x1234),
    ([0xCC, 0x34, 0x12], .cz 0x1234),
    ([0xD4, 0x34, 0x12], .cnc 0x1234),
    ([0xDC, 0x34, 0x12], .cc 0x1234),
    ([0xE4, 0x34, 0x12], .cpo 0x1234),
    ([0xEC, 0x34, 0x12], .cpe 0x1234),
    ([0xF4, 0x34, 0x12], .cp 0x1234),
    ([0xFC, 0x34, 0x12], .cm 0x1234),
    ([0xC9], .ret),
    ([0xC0], .rnz),
    ([0xC8], .rz),
    ([0xD0], .rnc),
    ([0xD8], .rc),
    ([0xE0], .rpo),
    ([0xE8], .rpe),
    ([0xF0], .rp),
    ([0xF8], .rm),
    ([0xC7], .rst 0),
    ([0xEF], .rst 5)] = true := by decide +kernel

/-- One word for each row of 47_rotate.md. -/
theorem test_decode_rotates : decodesAs [
    ([0x07], .rlc),
    ([0x17], .ral),
    ([0x0F], .rrc),
    ([0x1F], .rar)] = true := by decide +kernel

/-- One word for each row of 48_io.md. -/
theorem test_decode_io : decodesAs [
    ([0xDB, 0x12], .inPort 0x12),
    ([0xD3, 0x12], .outPort 0x12)] = true := by decide +kernel

/-- The twelve opcode values without a row are refused by name (30_encoding.md R87). -/
theorem test_decode_refuses_undefined : undefinedOpcodes.all (fun op =>
    match decode [op, 0x12, 0x34] with
    | .error (.illegalOpcode x) => x == op
    | _ => false) = true := by decide +kernel

theorem test_decode_refuses_missing_bytes : decode [0xC3, 0x34] = .error (.truncated 0xC3) ∧
    decode [] = .error .noBytes := ⟨rfl, rfl⟩

/-- JMP 1234h in the numbering of spec/opcode_table.json; and with the table's 8 bits alone the operand
bytes are 0. -/
theorem test_decodeTableWord : decodeTableWord 24 0x1234C3 = some (.jmp 0x1234) ∧
    decodeTableWord 8 0x1234C3 = some (.jmp 0x0000) ∧ decodeTableWord 8 0xDD = none := by
  decide +kernel

/-! ## Steps: the vectors of 95_test_vectors.md -/

/-- Bytes put in memory one after another from an address up, with wrap. -/
def load (s : State) : Word → List Byte → State
  | _, [] => s
  | x, v :: vs => load (s.loadByte x v) (x + 1) vs

/-- The reset state with a program at 0100h and pc there, as the vectors have it. -/
def at0100 (code : List Byte) : State := load { State.reset with pc := 0x0100 } 0x0100 code

/-- Flags S Z H P C written as the vectors write them. -/
def fl (s z h p c : Nat) : Flags := ⟨s == 1, z == 1, h == 1, p == 1, c == 1⟩

/-- What a check sees of the state after one step; nothing if the step stops. -/
def after {α : Type} (s : State) (view : State → α) : Option α :=
  match step s with
  | .next t => some (view t)
  | _ => none

-- MOV B, A 47
theorem test_step_movRR :
    after { at0100 [0x47] with a := 0x5A, b := 0x00 }
      (fun t => (t.b, t.flags, t.pc)) =
    some (0x5A, (fl 0 0 0 0 0), 0x0101) := by decide
-- MVI C, n 0E FF
theorem test_step_mviR :
    after { at0100 [0x0E, 0xFF] with c := 0x00 }
      (fun t => (t.c, t.flags, t.pc)) =
    some (0xFF, (fl 0 0 0 0 0), 0x0102) := by decide
-- MOV E, M 5E
theorem test_step_movRM :
    after { load (at0100 [0x5E]) 0x2000 [0xA5] with e := 0x00, h := 0x20, l := 0x00 }
      (fun t => (t.e, t.flags, t.pc)) =
    some (0xA5, (fl 0 0 0 0 0), 0x0101) := by decide
-- MOV M, A 77
theorem test_step_movMR :
    after { at0100 [0x77] with a := 0x12, h := 0x20, l := 0x00 }
      (fun t => (t.byteAt 0x2000, t.flags, t.pc)) =
    some (0x12, (fl 0 0 0 0 0), 0x0101) := by decide
-- MVI M, n 36 99
theorem test_step_mviM :
    after { at0100 [0x36, 0x99] with h := 0xFF, l := 0xFF }
      (fun t => (t.byteAt 0xFFFF, t.flags, t.pc)) =
    some (0x99, (fl 0 0 0 0 0), 0x0102) := by decide
-- LDAX B 0A
theorem test_step_ldaxB :
    after { load (at0100 [0x0A]) 0x2001 [0x7E] with a := 0x00, b := 0x20, c := 0x01 }
      (fun t => (t.a, t.flags, t.pc)) =
    some (0x7E, (fl 0 0 0 0 0), 0x0101) := by decide
-- LDAX D 1A
theorem test_step_ldaxD :
    after { load (at0100 [0x1A]) 0x0000 [0xC3] with a := 0x00, d := 0x00, e := 0x00 }
      (fun t => (t.a, t.flags, t.pc)) =
    some (0xC3, (fl 0 0 0 0 0), 0x0101) := by decide
-- LDA nn 3A 00 30
theorem test_step_lda :
    after { load (load State.reset 0xFFFE [0x3A, 0x00, 0x30]) 0x3000 [0x01] with
        a := 0x00, pc := 0xFFFE }
      (fun t => (t.a, t.flags, t.pc)) =
    some (0x01, (fl 0 0 0 0 0), 0x0001) := by decide
-- STAX B 02
theorem test_step_staxB :
    after { at0100 [0x02] with a := 0x44, b := 0x20, c := 0x02 }
      (fun t => (t.byteAt 0x2002, t.flags, t.pc)) =
    some (0x44, (fl 0 0 0 0 0), 0x0101) := by decide
-- STAX D 12
theorem test_step_staxD :
    after { at0100 [0x12] with a := 0x45, d := 0x20, e := 0x03 }
      (fun t => (t.byteAt 0x2003, t.flags, t.pc)) =
    some (0x45, (fl 0 0 0 0 0), 0x0101) := by decide
-- STA nn 32 FF FF
theorem test_step_sta :
    after { at0100 [0x32, 0xFF, 0xFF] with a := 0x80 }
      (fun t => (t.byteAt 0xFFFF, t.flags, t.pc)) =
    some (0x80, (fl 0 0 0 0 0), 0x0103) := by decide
-- LXI B, nn 01 34 12
theorem test_step_lxiB :
    after { at0100 [0x01, 0x34, 0x12] with b := 0x00, c := 0x00 }
      (fun t => (t.b, t.c, t.pc)) =
    some (0x12, 0x34, 0x0103) := by decide
-- LXI D, nn 11 CD AB
theorem test_step_lxiD :
    after { at0100 [0x11, 0xCD, 0xAB] with d := 0x00, e := 0x00 }
      (fun t => (t.d, t.e, t.pc)) =
    some (0xAB, 0xCD, 0x0103) := by decide
-- LXI H, nn 21 00 20
theorem test_step_lxiH :
    after { at0100 [0x21, 0x00, 0x20] with h := 0x00, l := 0x00 }
      (fun t => (t.h, t.pc)) =
    some (0x20, 0x0103) := by decide
-- LXI SP, nn 31 00 24
theorem test_step_lxiSP :
    after { at0100 [0x31, 0x00, 0x24] with sp := 0x0000 }
      (fun t => (t.sp, t.pc)) =
    some (0x2400, 0x0103) := by decide
-- LHLD nn 2A FF FF
theorem test_step_lhld :
    after { load (load (at0100 [0x2A, 0xFF, 0xFF]) 0xFFFF [0x11]) 0x0000 [0x22] with
        h := 0x00, l := 0x00 }
      (fun t => (t.h, t.l, t.pc)) =
    some (0x22, 0x11, 0x0103) := by decide
-- SHLD nn 22 00 20
theorem test_step_shld :
    after { at0100 [0x22, 0x00, 0x20] with h := 0xAB, l := 0xCD }
      (fun t => (t.byteAt 0x2000, t.byteAt 0x2001, t.pc)) =
    some (0xCD, 0xAB, 0x0103) := by decide
-- SPHL F9
theorem test_step_sphl :
    after { at0100 [0xF9] with h := 0x24, l := 0x00, sp := 0x1111 }
      (fun t => (t.sp, t.pc)) =
    some (0x2400, 0x0101) := by decide
-- XCHG EB
theorem test_step_xchg :
    after { at0100 [0xEB] with d := 0x12, e := 0x34, h := 0xAB, l := 0xCD }
      (fun t => (t.d, t.e, t.h, t.l, t.pc)) =
    some (0xAB, 0xCD, 0x12, 0x34, 0x0101) := by decide
-- XTHL E3
theorem test_step_xthl :
    after { load (load (at0100 [0xE3]) 0x23FE [0x34]) 0x23FF [0x12] with
        h := 0xAB, l := 0xCD, sp := 0x23FE }
      (fun t => (t.h, t.l, t.byteAt 0x23FF, t.byteAt 0x23FE, t.pc)) =
    some (0x12, 0x34, 0xAB, 0xCD, 0x0101) := by decide
-- PUSH B C5
theorem test_step_pushB :
    after { at0100 [0xC5] with b := 0x12, c := 0x34, sp := 0x2400 }
      (fun t => (t.sp, t.byteAt 0x23FF, t.byteAt 0x23FE, t.pc)) =
    some (0x23FE, 0x12, 0x34, 0x0101) := by decide
-- PUSH D D5
theorem test_step_pushD :
    after { at0100 [0xD5] with d := 0xAB, e := 0xCD, sp := 0x0001 }
      (fun t => (t.sp, t.byteAt 0x0000, t.byteAt 0xFFFF, t.pc)) =
    some (0xFFFF, 0xAB, 0xCD, 0x0101) := by decide
-- PUSH H E5
theorem test_step_pushH :
    after { at0100 [0xE5] with h := 0x0F, l := 0x0F, sp := 0x2400 }
      (fun t => (t.sp, t.byteAt 0x23FF, t.byteAt 0x23FE, t.pc)) =
    some (0x23FE, 0x0F, 0x0F, 0x0101) := by decide
-- POP B C1
theorem test_step_popB :
    after { load (load (at0100 [0xC1]) 0x23FE [0x34]) 0x23FF [0x12] with
        b := 0x00, c := 0x00, sp := 0x23FE }
      (fun t => (t.b, t.c, t.sp, t.pc)) =
    some (0x12, 0x34, 0x2400, 0x0101) := by decide
-- POP D D1
theorem test_step_popD :
    after { load (load (at0100 [0xD1]) 0xFFFF [0xCD]) 0x0000 [0xAB] with
        d := 0x00, e := 0x00, sp := 0xFFFF }
      (fun t => (t.d, t.e, t.sp, t.pc)) =
    some (0xAB, 0xCD, 0x0001, 0x0101) := by decide
-- POP H E1
theorem test_step_popH :
    after { load (load (at0100 [0xE1]) 0x23FE [0x0F]) 0x23FF [0xF0] with
        h := 0x00, l := 0x00, sp := 0x23FE }
      (fun t => (t.h, t.l, t.sp, t.pc)) =
    some (0xF0, 0x0F, 0x2400, 0x0101) := by decide
-- POP PSW F1
theorem test_step_popPSW :
    after { load (load (at0100 [0xF1]) 0x23FE [0xFF]) 0x23FF [0x12] with a := 0x00, sp := 0x23FE }
      (fun t => (t.a, t.sp, t.flags, t.pc)) =
    some (0x12, 0x2400, (fl 1 1 1 1 1), 0x0101) := by decide
-- ADD C 81
theorem test_step_addR :
    after { at0100 [0x81] with a := 0xFF, c := 0x01 }
      (fun t => (t.a, t.flags, t.pc)) =
    some (0x00, (fl 0 1 1 1 1), 0x0101) := by decide
-- ADI n C6 0F
theorem test_step_adi :
    after { at0100 [0xC6, 0x0F] with a := 0x01, flags := (fl 0 0 0 0 1) }
      (fun t => (t.a, t.flags, t.pc)) =
    some (0x10, (fl 0 0 1 0 0), 0x0102) := by decide
-- ADD M 86
theorem test_step_addM :
    after { load (at0100 [0x86]) 0x2000 [0x22] with a := 0x10, h := 0x20, l := 0x00 }
      (fun t => (t.a, t.flags, t.pc)) =
    some (0x32, (fl 0 0 0 0 0), 0x0101) := by decide
-- ADC E 8B
theorem test_step_adcR :
    after { at0100 [0x8B] with a := 0x3D, e := 0x42, flags := (fl 0 0 0 0 1) }
      (fun t => (t.a, t.flags, t.pc)) =
    some (0x80, (fl 1 0 1 0 0), 0x0101) := by decide
-- ACI n CE 00
theorem test_step_aci :
    after { at0100 [0xCE, 0x00] with a := 0xFF, flags := (fl 0 0 0 0 1) }
      (fun t => (t.a, t.flags, t.pc)) =
    some (0x00, (fl 0 1 1 1 1), 0x0102) := by decide
-- ADC M 8E
theorem test_step_adcM :
    after { load (at0100 [0x8E]) 0x2000 [0x00] with
        a := 0x0F, h := 0x20, l := 0x00, flags := (fl 0 0 0 0 1) }
      (fun t => (t.a, t.flags, t.pc)) =
    some (0x10, (fl 0 0 1 0 0), 0x0101) := by decide
-- SUB L 95
theorem test_step_subR :
    after { at0100 [0x95] with a := 0x00, l := 0x01 }
      (fun t => (t.a, t.flags.s, t.flags.z, t.flags.p, t.flags.c, t.pc)) =
    some (0xFF, true, false, true, true, 0x0101) := by decide
-- SUI n D6 01
theorem test_step_sui :
    after { at0100 [0xD6, 0x01] with a := 0x10 }
      (fun t => (t.a, t.flags.s, t.flags.z, t.flags.p, t.flags.c, t.pc)) =
    some (0x0F, false, false, true, false, 0x0102) := by decide
-- SUB M 96
theorem test_step_subM :
    after { load (at0100 [0x96]) 0x2000 [0x01] with a := 0x80, h := 0x20, l := 0x00 }
      (fun t => (t.a, t.flags.s, t.flags.z, t.flags.p, t.flags.c, t.pc)) =
    some (0x7F, false, false, false, false, 0x0101) := by decide
-- SBB C 99
theorem test_step_sbbR :
    after { at0100 [0x99] with a := 0x00, c := 0xFF, flags := (fl 0 0 0 0 1) }
      (fun t => (t.a, t.flags.s, t.flags.z, t.flags.p, t.flags.c, t.pc)) =
    some (0x00, false, true, true, true, 0x0101) := by decide
-- SBI n DE 00
theorem test_step_sbi :
    after { at0100 [0xDE, 0x00] with a := 0x00, flags := (fl 0 0 0 0 1) }
      (fun t => (t.a, t.flags.s, t.flags.z, t.flags.p, t.flags.c, t.pc)) =
    some (0xFF, true, false, true, true, 0x0102) := by decide
-- SBB M 9E
theorem test_step_sbbM :
    after { load (at0100 [0x9E]) 0x2000 [0x50] with a := 0x50, h := 0x20, l := 0x00 }
      (fun t => (t.a, t.flags.s, t.flags.z, t.flags.p, t.flags.c, t.pc)) =
    some (0x00, false, true, true, false, 0x0101) := by decide
-- CMP E BB
theorem test_step_cmpR :
    after { at0100 [0xBB] with a := 0x02, e := 0x05 }
      (fun t => (t.a, t.flags.s, t.flags.z, t.flags.p, t.flags.c, t.pc)) =
    some (0x02, true, false, false, true, 0x0101) := by decide
-- CPI n FE 40
theorem test_step_cpi :
    after { at0100 [0xFE, 0x40] with a := 0x40 }
      (fun t => (t.a, t.flags.s, t.flags.z, t.flags.p, t.flags.c, t.pc)) =
    some (0x40, false, true, true, false, 0x0102) := by decide
-- CMP M BE
theorem test_step_cmpM :
    after { load (at0100 [0xBE]) 0x2000 [0x80] with a := 0x00, h := 0x20, l := 0x00 }
      (fun t => (t.a, t.flags.s, t.flags.z, t.flags.p, t.flags.c, t.pc)) =
    some (0x00, true, false, false, true, 0x0101) := by decide
-- ANA C A1
theorem test_step_anaR :
    after { at0100 [0xA1] with a := 0xFC, c := 0x0F, flags := (fl 0 0 1 0 1) }
      (fun t => (t.a, t.flags, t.pc)) =
    some (0x0C, (fl 0 0 1 1 0), 0x0101) := by decide
-- ANI n E6 80
theorem test_step_ani :
    after { at0100 [0xE6, 0x80] with a := 0xFF }
      (fun t => (t.a, t.flags, t.pc)) =
    some (0x80, (fl 1 0 0 0 0), 0x0102) := by decide
-- ANA M A6
theorem test_step_anaM :
    after { load (at0100 [0xA6]) 0x2000 [0xA5] with
        a := 0x5A, h := 0x20, l := 0x00, flags := (fl 0 0 1 0 0) }
      (fun t => (t.a, t.flags, t.pc)) =
    some (0x00, (fl 0 1 1 1 0), 0x0101) := by decide
-- ORA A B7
theorem test_step_oraR :
    after { at0100 [0xB7] with a := 0x80, flags := (fl 0 0 1 0 1) }
      (fun t => (t.a, t.flags, t.pc)) =
    some (0x80, (fl 1 0 1 0 0), 0x0101) := by decide
-- ORI n F6 00
theorem test_step_ori :
    after { at0100 [0xF6, 0x00] with a := 0x00, flags := (fl 1 0 0 0 1) }
      (fun t => (t.a, t.flags, t.pc)) =
    some (0x00, (fl 0 1 0 1 0), 0x0102) := by decide
-- ORA M B6
theorem test_step_oraM :
    after { load (at0100 [0xB6]) 0x2000 [0x02] with a := 0x01, h := 0x20, l := 0x00 }
      (fun t => (t.a, t.flags, t.pc)) =
    some (0x03, (fl 0 0 0 1 0), 0x0101) := by decide
-- XRA A AF
theorem test_step_xraR :
    after { at0100 [0xAF] with a := 0x5C, flags := (fl 1 0 1 0 1) }
      (fun t => (t.a, t.flags, t.pc)) =
    some (0x00, (fl 0 1 1 1 0), 0x0101) := by decide
-- XRI n EE FF
theorem test_step_xri :
    after { at0100 [0xEE, 0xFF] with a := 0x55, flags := (fl 0 0 0 0 1) }
      (fun t => (t.a, t.flags, t.pc)) =
    some (0xAA, (fl 1 0 0 1 0), 0x0102) := by decide
-- XRA M AE
theorem test_step_xraM :
    after { load (at0100 [0xAE]) 0x2000 [0xA5] with a := 0x5A, h := 0x20, l := 0x00 }
      (fun t => (t.a, t.flags, t.pc)) =
    some (0xFF, (fl 1 0 0 1 0), 0x0101) := by decide
-- INR B 04
theorem test_step_inrR :
    after { at0100 [0x04] with b := 0xFF }
      (fun t => (t.b, t.flags, t.pc)) =
    some (0x00, (fl 0 1 1 1 0), 0x0101) := by decide
-- INR M 34
theorem test_step_inrM :
    after { load (at0100 [0x34]) 0x2000 [0x99] with h := 0x20, l := 0x00 }
      (fun t => (t.byteAt 0x2000, t.flags, t.pc)) =
    some (0x9A, (fl 1 0 0 1 0), 0x0101) := by decide
-- DCR C 0D
theorem test_step_dcrR :
    after { at0100 [0x0D] with c := 0x00 }
      (fun t => (t.c, t.flags.s, t.flags.z, t.flags.p, t.flags.c, t.pc)) =
    some (0xFF, true, false, true, false, 0x0101) := by decide
-- DCR M 35
theorem test_step_dcrM :
    after { load (at0100 [0x35]) 0x2000 [0x10] with h := 0x20, l := 0x00 }
      (fun t => (t.byteAt 0x2000, t.flags.s, t.flags.z, t.flags.p, t.flags.c, t.pc)) =
    some (0x0F, false, false, true, false, 0x0101) := by decide
-- DAA 27
theorem test_step_daa :
    after { at0100 [0x27] with a := 0x9B }
      (fun t => (t.a, t.flags, t.pc)) =
    some (0x01, (fl 0 0 1 0 1), 0x0101) := by decide
-- CMA 2F
theorem test_step_cma :
    after { at0100 [0x2F] with a := 0x51, flags := (fl 1 1 1 1 1) }
      (fun t => (t.a, t.pc)) =
    some (0xAE, 0x0101) := by decide
-- DAD B 09
theorem test_step_dadB :
    after { at0100 [0x09] with b := 0x33, c := 0x9F, h := 0xA1, l := 0x7B, flags := (fl 1 1 1 1 0) }
      (fun t => (t.h, t.l, t.flags, t.pc)) =
    some (0xD5, 0x1A, (fl 1 1 1 1 0), 0x0101) := by decide
-- DAD D 19
theorem test_step_dadD :
    after { at0100 [0x19] with d := 0x00, e := 0x01, h := 0xFF, l := 0xFF }
      (fun t => (t.h, t.l, t.flags, t.pc)) =
    some (0x00, 0x00, (fl 0 0 0 0 1), 0x0101) := by decide
-- DAD H 29
theorem test_step_dadH :
    after { at0100 [0x29] with h := 0x80, l := 0x01 }
      (fun t => (t.h, t.l, t.flags, t.pc)) =
    some (0x00, 0x02, (fl 0 0 0 0 1), 0x0101) := by decide
-- DAD SP 39
theorem test_step_dadSP :
    after { at0100 [0x39] with h := 0x00, l := 0x00, sp := 0x23F0, flags := (fl 0 0 0 0 1) }
      (fun t => (t.h, t.l, t.flags, t.pc)) =
    some (0x23, 0xF0, (fl 0 0 0 0 0), 0x0101) := by decide
-- INX B 03
theorem test_step_inxB :
    after { at0100 [0x03] with b := 0x12, c := 0xFF, flags := (fl 1 1 1 1 1) }
      (fun t => (t.b, t.c, t.flags, t.pc)) =
    some (0x13, 0x00, (fl 1 1 1 1 1), 0x0101) := by decide
-- INX D 13
theorem test_step_inxD :
    after { at0100 [0x13] with d := 0xFF, e := 0xFF }
      (fun t => (t.d, t.e, t.flags, t.pc)) =
    some (0x00, 0x00, (fl 0 0 0 0 0), 0x0101) := by decide
-- INX H 23
theorem test_step_inxH :
    after { at0100 [0x23] with h := 0x20, l := 0x00 }
      (fun t => (t.l, t.flags, t.pc)) =
    some (0x01, (fl 0 0 0 0 0), 0x0101) := by decide
-- INX SP 33
theorem test_step_inxSP :
    after { at0100 [0x33] with sp := 0xFFFF }
      (fun t => (t.sp, t.flags, t.pc)) =
    some (0x0000, (fl 0 0 0 0 0), 0x0101) := by decide
-- DCX B 0B
theorem test_step_dcxB :
    after { at0100 [0x0B] with b := 0x00, c := 0x01 }
      (fun t => (t.c, t.flags, t.pc)) =
    some (0x00, (fl 0 0 0 0 0), 0x0101) := by decide
-- DCX D 1B
theorem test_step_dcxD :
    after { at0100 [0x1B] with d := 0x00, e := 0x00 }
      (fun t => (t.d, t.e, t.flags, t.pc)) =
    some (0xFF, 0xFF, (fl 0 0 0 0 0), 0x0101) := by decide
-- DCX H 2B
theorem test_step_dcxH :
    after { at0100 [0x2B] with h := 0x21, l := 0x00 }
      (fun t => (t.h, t.l, t.flags, t.pc)) =
    some (0x20, 0xFF, (fl 0 0 0 0 0), 0x0101) := by decide
-- DCX SP 3B
theorem test_step_dcxSP :
    after { at0100 [0x3B] with sp := 0x0000 }
      (fun t => (t.sp, t.flags, t.pc)) =
    some (0xFFFF, (fl 0 0 0 0 0), 0x0101) := by decide
-- CMC 3F
theorem test_step_cmc :
    after (at0100 [0x3F])
      (fun t => (t.flags, t.pc)) =
    some ((fl 0 0 0 0 1), 0x0101) := by decide
-- STC 37
theorem test_step_stc :
    after { at0100 [0x37] with flags := (fl 1 1 1 1 1) }
      (fun t => (t.flags, t.pc)) =
    some ((fl 1 1 1 1 1), 0x0101) := by decide
-- NOP 00
theorem test_step_nop :
    after { at0100 [0x00] with flags := (fl 1 1 1 1 1), intInhibit := true }
      (fun t => (t.flags, t.intInhibit, t.pc)) =
    some ((fl 1 1 1 1 1), false, 0x0101) := by decide
-- HLT 76
theorem test_step_hlt :
    after (at0100 [0x76])
      (fun t => (t.flags, t.halted, t.pc)) =
    some ((fl 0 0 0 0 0), true, 0x0101) := by decide
-- DI F3
theorem test_step_di :
    after { at0100 [0xF3] with iff := true }
      (fun t => (t.flags, t.iff, t.intInhibit, t.pc)) =
    some ((fl 0 0 0 0 0), false, true, 0x0101) := by decide
-- EI FB
theorem test_step_ei :
    after (at0100 [0xFB])
      (fun t => (t.flags, t.iff, t.intInhibit, t.pc)) =
    some ((fl 0 0 0 0 0), true, true, 0x0101) := by decide
-- JMP nn C3 00 02
theorem test_step_jmp :
    after (at0100 [0xC3, 0x00, 0x02])
      (fun t => (t.flags, t.pc)) =
    some ((fl 0 0 0 0 0), 0x0200) := by decide
-- JNZ nn C2 00 02
theorem test_step_jnz :
    after (at0100 [0xC2, 0x00, 0x02])
      (fun t => (t.flags, t.pc)) =
    some ((fl 0 0 0 0 0), 0x0200) := by decide
-- JZ nn CA 00 02
theorem test_step_jz :
    after { at0100 [0xCA, 0x00, 0x02] with flags := (fl 0 1 0 0 0) }
      (fun t => (t.flags, t.pc)) =
    some ((fl 0 1 0 0 0), 0x0200) := by decide
-- JNC nn D2 00 02
theorem test_step_jnc :
    after (at0100 [0xD2, 0x00, 0x02])
      (fun t => (t.flags, t.pc)) =
    some ((fl 0 0 0 0 0), 0x0200) := by decide
-- JC nn DA 00 02
theorem test_step_jc :
    after { at0100 [0xDA, 0x00, 0x02] with flags := (fl 0 0 0 0 1) }
      (fun t => (t.flags, t.pc)) =
    some ((fl 0 0 0 0 1), 0x0200) := by decide
-- JPO nn E2 00 02
theorem test_step_jpo :
    after (at0100 [0xE2, 0x00, 0x02])
      (fun t => (t.flags, t.pc)) =
    some ((fl 0 0 0 0 0), 0x0200) := by decide
-- JPE nn EA 00 02
theorem test_step_jpe :
    after { at0100 [0xEA, 0x00, 0x02] with flags := (fl 0 0 0 1 0) }
      (fun t => (t.flags, t.pc)) =
    some ((fl 0 0 0 1 0), 0x0200) := by decide
-- JP nn F2 00 02
theorem test_step_jp :
    after (at0100 [0xF2, 0x00, 0x02])
      (fun t => (t.flags, t.pc)) =
    some ((fl 0 0 0 0 0), 0x0200) := by decide
-- JM nn FA 00 02
theorem test_step_jm :
    after { at0100 [0xFA, 0x00, 0x02] with flags := (fl 1 0 0 0 0) }
      (fun t => (t.flags, t.pc)) =
    some ((fl 1 0 0 0 0), 0x0200) := by decide
-- PCHL E9
theorem test_step_pchl :
    after { at0100 [0xE9] with h := 0x01, l := 0x50 }
      (fun t => (t.flags, t.pc)) =
    some ((fl 0 0 0 0 0), 0x0150) := by decide
-- CALL nn CD 00 02
theorem test_step_call :
    after { load State.reset 0x0103 [0xCD, 0x00, 0x02] with sp := 0x0000, pc := 0x0103 }
      (fun t => (t.sp, t.byteAt 0xFFFF, t.byteAt 0xFFFE, t.pc)) =
    some (0xFFFE, 0x01, 0x06, 0x0200) := by decide
-- CNZ nn C4 00 02
theorem test_step_cnz :
    after { at0100 [0xC4, 0x00, 0x02] with sp := 0x2400 }
      (fun t => (t.sp, t.byteAt 0x23FF, t.byteAt 0x23FE, t.pc)) =
    some (0x23FE, 0x01, 0x03, 0x0200) := by decide
-- CZ nn CC 00 02
theorem test_step_cz :
    after { at0100 [0xCC, 0x00, 0x02] with sp := 0x2400, flags := (fl 0 1 0 0 0) }
      (fun t => (t.sp, t.byteAt 0x23FF, t.byteAt 0x23FE, t.pc)) =
    some (0x23FE, 0x01, 0x03, 0x0200) := by decide
-- CNC nn D4 00 02
theorem test_step_cnc :
    after { at0100 [0xD4, 0x00, 0x02] with sp := 0x2400 }
      (fun t => (t.sp, t.byteAt 0x23FF, t.byteAt 0x23FE, t.pc)) =
    some (0x23FE, 0x01, 0x03, 0x0200) := by decide
-- CC nn DC 00 02
theorem test_step_cc :
    after { at0100 [0xDC, 0x00, 0x02] with sp := 0x2400, flags := (fl 0 0 0 0 1) }
      (fun t => (t.sp, t.byteAt 0x23FF, t.byteAt 0x23FE, t.pc)) =
    some (0x23FE, 0x01, 0x03, 0x0200) := by decide
-- CPO nn E4 00 02
theorem test_step_cpo :
    after { at0100 [0xE4, 0x00, 0x02] with sp := 0x2400 }
      (fun t => (t.sp, t.byteAt 0x23FF, t.byteAt 0x23FE, t.pc)) =
    some (0x23FE, 0x01, 0x03, 0x0200) := by decide
-- CPE nn EC 00 02
theorem test_step_cpe :
    after { at0100 [0xEC, 0x00, 0x02] with sp := 0x2400, flags := (fl 0 0 0 1 0) }
      (fun t => (t.sp, t.byteAt 0x23FF, t.byteAt 0x23FE, t.pc)) =
    some (0x23FE, 0x01, 0x03, 0x0200) := by decide
-- CP nn F4 00 02
theorem test_step_cp :
    after { at0100 [0xF4, 0x00, 0x02] with sp := 0x2400 }
      (fun t => (t.sp, t.byteAt 0x23FF, t.byteAt 0x23FE, t.pc)) =
    some (0x23FE, 0x01, 0x03, 0x0200) := by decide
-- CM nn FC 00 02
theorem test_step_cm :
    after { at0100 [0xFC, 0x00, 0x02] with sp := 0x2400, flags := (fl 1 0 0 0 0) }
      (fun t => (t.sp, t.byteAt 0x23FF, t.byteAt 0x23FE, t.pc)) =
    some (0x23FE, 0x01, 0x03, 0x0200) := by decide
-- RET C9
theorem test_step_ret :
    after { load (load (load State.reset 0x0210 [0xC9]) 0x23FE [0x06]) 0x23FF [0x01] with
        sp := 0x23FE, pc := 0x0210 }
      (fun t => (t.sp, t.pc)) =
    some (0x2400, 0x0106) := by decide
-- RNZ C0
theorem test_step_rnz :
    after { load (load (load State.reset 0x0210 [0xC0]) 0x23FE [0x06]) 0x23FF [0x01] with
        sp := 0x23FE, pc := 0x0210 }
      (fun t => (t.sp, t.pc)) =
    some (0x2400, 0x0106) := by decide
-- RZ C8
theorem test_step_rz :
    after { load (load (load State.reset 0x0210 [0xC8]) 0x23FE [0x06]) 0x23FF [0x01] with
        sp := 0x23FE, flags := (fl 0 1 0 0 0), pc := 0x0210 }
      (fun t => (t.sp, t.pc)) =
    some (0x2400, 0x0106) := by decide
-- RNC D0
theorem test_step_rnc :
    after { load (load (load State.reset 0x0210 [0xD0]) 0x23FE [0x06]) 0x23FF [0x01] with
        sp := 0x23FE, pc := 0x0210 }
      (fun t => (t.sp, t.pc)) =
    some (0x2400, 0x0106) := by decide
-- RC D8
theorem test_step_rc :
    after { load (load (load State.reset 0x0210 [0xD8]) 0x23FE [0x06]) 0x23FF [0x01] with
        sp := 0x23FE, flags := (fl 0 0 0 0 1), pc := 0x0210 }
      (fun t => (t.sp, t.pc)) =
    some (0x2400, 0x0106) := by decide
-- RPO E0
theorem test_step_rpo :
    after { load (load (load State.reset 0x0210 [0xE0]) 0x23FE [0x06]) 0x23FF [0x01] with
        sp := 0x23FE, pc := 0x0210 }
      (fun t => (t.sp, t.pc)) =
    some (0x2400, 0x0106) := by decide
-- RPE E8
theorem test_step_rpe :
    after { load (load (load State.reset 0x0210 [0xE8]) 0x23FE [0x06]) 0x23FF [0x01] with
        sp := 0x23FE, flags := (fl 0 0 0 1 0), pc := 0x0210 }
      (fun t => (t.sp, t.pc)) =
    some (0x2400, 0x0106) := by decide
-- RP F0
theorem test_step_rp :
    after { load (load (load State.reset 0x0210 [0xF0]) 0x23FE [0x06]) 0x23FF [0x01] with
        sp := 0x23FE, pc := 0x0210 }
      (fun t => (t.sp, t.pc)) =
    some (0x2400, 0x0106) := by decide
-- RM F8
theorem test_step_rm :
    after { load (load (load State.reset 0x0210 [0xF8]) 0x23FE [0x06]) 0x23FF [0x01] with
        sp := 0x23FE, flags := (fl 1 0 0 0 0), pc := 0x0210 }
      (fun t => (t.sp, t.pc)) =
    some (0x2400, 0x0106) := by decide
-- RST 0 C7
theorem test_step_rst :
    after { load State.reset 0x0150 [0xC7] with sp := 0x2400, pc := 0x0150 }
      (fun t => (t.sp, t.byteAt 0x23FF, t.byteAt 0x23FE, t.pc)) =
    some (0x23FE, 0x01, 0x51, 0x0000) := by decide
-- RLC 07
theorem test_step_rlc :
    after { at0100 [0x07] with a := 0xF2, flags := (fl 1 1 1 1 0) }
      (fun t => (t.a, t.flags, t.pc)) =
    some (0xE5, (fl 1 1 1 1 1), 0x0101) := by decide
-- RAL 17
theorem test_step_ral :
    after { at0100 [0x17] with a := 0xF2, flags := (fl 1 1 1 1 0) }
      (fun t => (t.a, t.flags, t.pc)) =
    some (0xE4, (fl 1 1 1 1 1), 0x0101) := by decide
-- RRC 0F
theorem test_step_rrc :
    after { at0100 [0x0F] with a := 0x81, flags := (fl 1 1 1 1 0) }
      (fun t => (t.a, t.flags, t.pc)) =
    some (0xC0, (fl 1 1 1 1 1), 0x0101) := by decide
-- RAR 1F
theorem test_step_rar :
    after { at0100 [0x1F] with a := 0x81, flags := (fl 1 1 1 1 0) }
      (fun t => (t.a, t.flags, t.pc)) =
    some (0x40, (fl 1 1 1 1 1), 0x0101) := by decide
-- IN n DB 10
theorem test_step_inPort :
    after { at0100 [0xDB, 0x10] with a := 0x00, ioAnswers := [0x5A] }
      (fun t => (t.a, t.history, t.pc)) =
    some (0x5A, [.read 0x10 0x5A], 0x0102) := by decide
-- OUT n D3 01
theorem test_step_outPort :
    after { at0100 [0xD3, 0x01] with a := 0x3C }
      (fun t => (t.flags, t.history, t.pc)) =
    some ((fl 0 0 0 0 0), [.write 0x01 0x3C], 0x0102) := by decide

-- PUSH PSW F5: the worked case below table 2.2, whose Flags byte has three free bits.
theorem test_flags_byte : ∀ fill : BitVec 3, Flags.toByte (fl 1 0 1 1 0) fill ∈
    [0x94, 0x96, 0x9C, 0x9E, 0xB4, 0xB6, 0xBC, 0xBE] := by decide
theorem test_step_pushPSW :
    after { at0100 [0xF5] with a := 0x9A, sp := 0x2400, flags := (fl 1 0 1 1 0) }
      (fun t => (t.sp, t.flags, t.pc)) =
    some (0x23FE, (fl 1 0 1 1 0), 0x0101) := by decide

-- SUB8 10h - 01h, table 2.12, under both candidates.
theorem test_sub8_half :
    (sub8 .borrow 0x10 0x01 false).half = true ∧ (sub8 .carry 0x10 0x01 false).half = false ∧
    (sub8 .borrow 0x3E 0x3E false).half = false ∧ (sub8 .carry 0x3E 0x3E false).half = true := by
  decide

-- Table 2.12: 00h - FFh - 1 is 00h with a borrow; 7Fh + 00h + 1 is 80h.
theorem test_sub8_borrow : (sub8 .borrow 0x00 0xFF true).res = 0x00 ∧
    (sub8 .borrow 0x00 0xFF true).carry = true := by decide
theorem test_add8_half : add8 0x7F 0x00 true = ⟨0x80, false, true⟩ := by decide

-- Table 2.12: the parity of 03h, 7Fh, AEh.
theorem test_parity8 : parity8 0x03 = true ∧ parity8 0x7F = false ∧ parity8 0xAE = false := by decide

/-! ## Events: table 2.11 -/

/-- The state before rows E1 and E2. -/
def atE1 : State :=
  { load State.reset 0x0123 [0x00] with
    pc := 0x0123, sp := 0x2400, iff := true, events := [.request 2] }

-- E1
theorem test_event_accept : after atE1 (fun t =>
    (t.iff, t.sp, t.byteAt 0x23FF, t.byteAt 0x23FE, t.pc)) =
    some (false, 0x23FE, 0x01, 0x23, 0x0010) := by decide
-- E2
theorem test_event_ignored : after { atE1 with iff := false } (fun t => (t.pc, t.sp, t.events)) =
    some (0x0124, 0x2400, []) := by decide
-- E5, then E7: EI then DI never admits the interrupt
theorem test_event_after_ei : after { load State.reset 0x0124 [0xF3] with
    pc := 0x0124, iff := true, intInhibit := true, events := [.request 5] }
    (fun t => (t.iff, t.intInhibit, t.pc)) = some (false, true, 0x0125) := by decide
-- E8
theorem test_event_wakes_halt : after { State.reset with
    pc := 0x0047, sp := 0x2400, iff := true, halted := true, events := [.request 7] }
    (fun t => (t.halted, t.iff, t.byteAt 0x23FE, t.pc)) = some (false, false, 0x47, 0x0038) := by
  decide
-- E9, E10
theorem test_event_stutter : after { State.reset with
    pc := 0x0047, halted := true, events := [.request 7] } (fun t => (t.pc, t.halted)) =
    some (0x0047, true) := by decide
-- E11: acceptance comes before the fetch of an undefined opcode
theorem test_event_before_fault : after { load State.reset 0x0200 [0xED] with
    pc := 0x0200, sp := 0x2400, iff := true, events := [.request 3] } (fun t => t.pc) =
    some 0x0018 := by decide
-- E12
theorem test_event_fault : step { load State.reset 0x0200 [0xED] with pc := 0x0200 } =
    .fault (.illegalOpcode 0xED) := by rfl
-- E14
theorem test_event_reset : after { State.reset with
    pc := 0x0047, iff := true, halted := true, intInhibit := true, events := [.reset] }
    (fun t => (t.pc, t.iff, t.halted, t.intInhibit)) = some (0x0000, false, false, false) := by
  decide
-- E15
theorem test_event_pc_wraps : after { State.reset with pc := 0xFFFF } (fun t => t.pc) =
    some 0x0000 := by decide

/-! ## Where step fetches; the platform's map -/

theorem test_withFetchWord : after (State.reset.withFetchWord 24 0x1234C3) (fun t => t.pc) =
    some 0x1234 := by decide
theorem test_withFetchWord_wakes :
    after ({ State.reset with halted := true, iff := true, events := [.request 1] }.withFetchWord 8 0x37)
      (fun t => (t.flags.c, t.pc)) = some (true, 0x0001) := by decide

/-- Addresses 2000h to 2FFFh are ROM, 3000h to 3FFFh hold nothing. -/
def mapped (s : State) : State := { s with memMap := [⟨0x2000, 0x2FFF, .rom⟩, ⟨0x3000, 0x3FFF, .nothing⟩] }

-- 20_memory.md R59
theorem test_rom_write_ignored : after (mapped { at0100 [0x77] with a := 0x99, h := 0x2F, l := 0xFF })
    (fun t => (t.byteAt 0x2FFF, t.pc)) = some (0x00, 0x0101) := by decide
theorem test_unbacked_write_ignored : after (mapped { at0100 [0x77] with a := 0x99, h := 0x30 })
    (fun t => (t.byteAt 0x3000, t.pc)) = some (0x00, 0x0101) := by decide

/-! ## A state and operands for the hypotheses of each statement -/

theorem witness_DecodeInvertsEncode :
    Instr.WellFormed (.rst 7) ∧ Instr.WellFormed (.jmp 0xFFFF) ∧ Instr.WellFormed .xraM := by decide
theorem witness_EncodeInvertsDecode :
    decode [0x3A, 0x34, 0x12, 0xFF] = .ok (.lda 0x1234, [0xFF]) ∧ decode [0xFF] = .ok (.rst 7, []) :=
  ⟨rfl, rfl⟩
theorem witness_OpcodeAloneFixesLengthAndFormat :
    decodeInstr 0x3A 0x34 0x12 = some (.lda 0x1234) ∧ decodeInstr 0x36 0xFF 0x00 = some (.mviM 0xFF) ∧
      decodeInstr 0xFF 0x00 0x00 = some (.rst 7) := ⟨rfl, rfl, rfl⟩
/-- With the three bytes at FFFFh, 0000h and 0001h and a request while IFF is 0; and a program in ROM. -/
theorem witness_StepRunsTheDecodedInstruction :
    let s := { load State.reset 0xFFFF [0xC3, 0x34, 0x12] with pc := 0xFFFF, events := [.request 0] }
    (ExecutesNext s ∧
      decode [s.fetchByte s.pc, s.fetchByte (s.pc + 1), s.fetchByte (s.pc + 2)] =
        .ok (.jmp 0x1234, [])) ∧
    s.kindAt 0xFFFF = .ram ∧ (mapped s).kindAt 0x2000 = .rom ∧ (mapped s).kindAt 0x2FFF = .rom :=
  ⟨⟨⟨by decide, by decide, by decide⟩, rfl⟩, by decide, by decide, by decide⟩
theorem witness_UndefinedOpcodeFaults :
    ExecutesNext (at0100 [0xDD]) ∧
      (at0100 [0xDD]).fetchByte (at0100 [0xDD]).pc ∈ undefinedOpcodes :=
  ⟨⟨by decide, by decide, by decide⟩, by decide⟩
/-- A defined opcode, and an undefined one under a halted processor. -/
theorem witness_NothingElseStopsAStep :
    ¬ (ExecutesNext State.reset ∧ State.reset.fetchByte State.reset.pc ∈ undefinedOpcodes) ∧
    ¬ (ExecutesNext { at0100 [0xDD] with halted := true } ∧
      { at0100 [0xDD] with halted := true }.fetchByte 0x0100 ∈ undefinedOpcodes) :=
  ⟨fun h => absurd h.2 (by decide), fun h => absurd h.1.halted (by decide)⟩
/-- A request that finds int_inhibit 1 lets the instruction execute; one that is acceptable does not. -/
theorem witness_ExecutesNext :
    ExecutesNext { State.reset with iff := true, intInhibit := true, events := [.request 7] } ∧
    ¬ ExecutesNext { State.reset with iff := true, events := [.request 7] } :=
  ⟨⟨by decide, by decide, by decide⟩, fun h => absurd h.noAccept (by decide)⟩
/-- Restart numbers 0 and 7, and SP at 0001h so that the push wraps. -/
theorem witness_AcceptableInterruptIsTaken :
    let s := { State.reset with sp := 0x0001, iff := true, events := [.request 0] }
    let u := { State.reset with iff := true, halted := true, events := [.request 7, .quiet] }
    (s.presented = .request 0 ∧ s.iff = true ∧ s.intInhibit = false) ∧
      (u.presented = .request 7 ∧ u.iff = true ∧ u.intInhibit = false) := by decide
theorem witness_UnacceptableRequestHasNoEffect :
    let s := { State.reset with events := [.request 7] }
    let u := { State.reset with iff := true, intInhibit := true, events := [.request 0, .reset] }
    (s.events = .request 7 :: [] ∧ (s.iff = false ∨ s.intInhibit = true)) ∧
      (u.events = .request 0 :: [.reset] ∧ (u.iff = false ∨ u.intInhibit = true)) := by decide
theorem witness_HaltedProcessorStutters :
    let s := { State.reset with halted := true, iff := true, events := [.quiet, .request 3] }
    let u := { State.reset with halted := true, events := [.request 3] }
    (s.halted = true ∧ s.presented ≠ .reset ∧
      ∀ i, s.presented = .request i → s.iff = false ∨ s.intInhibit = true) ∧
    (u.halted = true ∧ u.presented ≠ .reset ∧
      ∀ i, u.presented = .request i → u.iff = false ∨ u.intInhibit = true) := by decide
theorem witness_ResetEventRestarts :
    { State.reset with halted := true, events := [.reset, .request 1] }.presented = .reset := by decide
theorem witness_StepKeepsMemoryCanonical :
    Memory.wf (at0100 [0x77]).mem = true ∧ Memory.wf [(0, 0x01), (65535, 0xFF)] = true ∧
      ∃ t, step (at0100 [0x77]) = .next t := ⟨by decide, by decide, _, rfl⟩
/-- A state that is not canonical, which the premise rules out. -/
theorem test_wf_refuses : Memory.wf [(5, 0x01), (5, 0x02)] = false ∧ Memory.wf [(5, 0x00)] = false ∧
    Memory.wf [(65536, 0x01)] = false := by decide
/-- A read of the first and the last byte of a ROM, and of RAM beside it, gives what is stored. -/
theorem witness_reads_of_rom_and_ram :
    let s := mapped (load (load State.reset 0x1FFF [0x11, 0x22]) 0x2FFF [0x33])
    (s.memRead 0x1FFF, s.memRead 0x2000, s.memRead 0x2FFF) = (0x11, 0x22, 0x33) ∧
      s.kindAt 0x1FFF = .ram ∧ s.kindAt 0x2000 = .rom ∧ s.kindAt 0x2FFF = .rom := by decide
theorem witness_OnlyRamBytesChange :
    (∃ t, step (mapped (at0100 [0x77])) = .next t) ∧ (∃ t, exec (.movMR .a) (mapped State.reset) = .next t) ∧
    (mapped State.reset).kindAt 0x2000 ≠ .ram ∧ (mapped State.reset).kindAt 0x2FFF ≠ .ram ∧
    (mapped State.reset).kindAt 0x3FFF ≠ .ram ∧ (mapped State.reset).kindAt 0x4000 = .ram :=
  ⟨⟨_, rfl⟩, ⟨_, rfl⟩, by decide, by decide, by decide, by decide⟩
/-- SHLD FFFFh: the two stored addresses, and one that is neither. -/
theorem witness_OnlyListedAddressesAreStored :
    (∃ t, exec (.shld 0xFFFF) State.reset = .next t) ∧
      storedAddresses (.shld 0xFFFF) State.reset = [0xFFFF, 0x0000] ∧
      (0x0001 : Word) ∉ storedAddresses (.shld 0xFFFF) State.reset := ⟨⟨_, rfl⟩, by decide, by decide⟩
/-- The conclusions of the rules about every instruction are met by IN, OUT, EI, DI, HLT and NOP. -/
theorem witness_HistoryRecordsPortAccesses :
    (∃ t, exec (.inPort 0xFF) State.reset = .next t) ∧ (∃ t, exec (.outPort 0x00) State.reset = .next t) ∧
      ∃ t, exec .nop State.reset = .next t := ⟨⟨_, rfl⟩, ⟨_, rfl⟩, ⟨_, rfl⟩⟩
theorem witness_InhibitFollowsEiAndDi :
    (∃ t, exec .ei State.reset = .next t ∧ t.intInhibit = true) ∧
      (∃ t, exec .di State.reset = .next t ∧ t.intInhibit = true) ∧
      ∃ t, exec .hlt { State.reset with intInhibit := true } = .next t ∧ t.intInhibit = false :=
  ⟨⟨_, rfl, rfl⟩, ⟨_, rfl, rfl⟩, ⟨_, rfl, rfl⟩⟩
theorem witness_ControlBitsHaveOnlyTheirWriters :
    (∃ t, exec .ei State.reset = .next t ∧ t.iff = true) ∧
      (∃ t, exec .di { State.reset with iff := true } = .next t ∧ t.iff = false) ∧
      (∃ t, exec .hlt State.reset = .next t ∧ t.halted = true) ∧
      ∃ t, exec .ret { State.reset with halted := true } = .next t ∧ t.halted = true :=
  ⟨⟨_, rfl, rfl⟩, ⟨_, rfl, rfl⟩, ⟨_, rfl, rfl⟩, ⟨_, rfl, rfl⟩⟩
theorem witness_FlagWriteTable :
    (∃ t, exec (.anaR .b) { State.reset with flags := (fl 1 1 1 1 1) } = .next t ∧
      t.flags.h = true ∧ t.flags.c = false) ∧
    (∃ t, exec .inrM { State.reset with flags := (fl 1 1 1 1 1) } = .next t ∧
      t.flags.c = true) := ⟨⟨_, rfl, rfl, rfl⟩, ⟨_, rfl, rfl⟩⟩
/-- A one-, a two- and a three-byte instruction, pc at FFFFh. -/
theorem witness_PcAdvancesUnlessAssigned :
    let s := { State.reset with pc := 0xFFFF }
    (assignsPc .xthl = false ∧ ∃ t, exec .xthl s = .next t ∧ t.pc = 0x0000) ∧
    (assignsPc (.mviM 0) = false ∧ ∃ t, exec (.mviM 0) s = .next t ∧ t.pc = 0x0001) ∧
    (assignsPc (.shld 0) = false ∧ ∃ t, exec (.shld 0) s = .next t ∧ t.pc = 0x0002) :=
  ⟨⟨rfl, _, rfl, rfl⟩, ⟨rfl, _, rfl, rfl⟩, ⟨rfl, _, rfl, rfl⟩⟩
theorem witness_StackPointerHasOnlyItsWriters :
    writesSP .xthl = false ∧ writesSP (.cnz 0) = true ∧
      ∃ t, exec .xthl { State.reset with sp := 0xFFFF } = .next t := ⟨rfl, rfl, _, rfl⟩
/-- IFF 0 with a request still to come, and IFF 1 in the closed world. -/
theorem witness_FinishedRunStaysFinished :
    let s := { State.reset with halted := true, events := [.request 3] }
    let u := { State.reset with halted := true, iff := true, events := [.quiet] }
    (s.finished = true ∧ s.noResets = true) ∧ (u.finished = true ∧ u.noResets = true) := by decide
theorem witness_InstructionAfterEiExecutes :
    let s := { at0100 [0xFB] with events := [.quiet, .request 5] }
    ExecutesNext s ∧ s.fetchByte s.pc = 0xFB ∧
      ∃ t, step s = .next t ∧ t.presented = .request 5 ∧ t.presented ≠ .reset ∧ t.fetch = some .nop :=
  ⟨⟨by decide, by decide, by decide⟩, by decide, _, rfl, by decide, by decide, by decide⟩
/-- Stores at the ends of the address space, in RAM; a store that falls in ROM is the other case. -/
theorem witness_ByteStoresWriteTheByte :
    State.reset.kindAt 0x0000 = .ram ∧ State.reset.kindAt 0xFFFF = .ram ∧
      (mapped State.reset).kindAt 0x1FFF = .ram ∧ (mapped State.reset).kindAt 0x2000 = .rom := by decide
/-- Two bytes with SP at 0000h and 0001h: the wrap falls between and before them. -/
theorem witness_two_stored_bytes :
    State.reset.kindAt ((0x0000 : Word) - 1) = .ram ∧ State.reset.kindAt ((0x0001 : Word) - 2) = .ram ∧
      (0x0000 : Word) - 1 = 0xFFFF ∧ (0x0001 : Word) - 2 = 0xFFFF ∧ (0xFFFF : Word) + 1 = 0x0000 := by
  decide
/-- PUSH PSW then POP PSW at once, SP at 0001h. -/
theorem witness_PopPswRestoresWhatPushPswSaved :
    let s := { State.reset with a := 0x5A, sp := 0x0001, flags := (fl 1 0 1 0 1) }
    ∃ t v, exec .pushPSW s = .next t ∧ s.kindAt (s.sp - 1) = .ram ∧ s.kindAt (s.sp - 2) = .ram ∧
      exec .popPSW t = .next v := ⟨_, _, rfl, by decide, by decide, rfl⟩
theorem witness_RetReturnsToCallerAndInterruptedProgram :
    let s := { State.reset with pc := 0xFFFE, sp := 0x0001, iff := true, events := [.request 7] }
    s.kindAt (s.sp - 1) = .ram ∧ s.kindAt (s.sp - 2) = .ram ∧
      (s.presented = .request 7 ∧ s.iff = true ∧ s.intInhibit = false) ∧
      (∃ t v, exec (.call 0x0200) s = .next t ∧ exec .ret t = .next v) ∧
      ∃ t v, step s = .next t ∧ exec .ret t = .next v :=
  ⟨by decide, by decide, by decide, ⟨_, _, rfl, rfl⟩, ⟨_, _, rfl, rfl⟩⟩
/-- The clauses of the half carry: one of the two candidates holds of the machine. -/
theorem witness_HalfOfBorrow : Config.subH = .borrow ∨ Config.subH = .carry := by
  cases Config.subH
  · exact .inl rfl
  · exact .inr rfl
/-- Each condition of DAA's two corrections at its boundary: low digit 9 and 10 (Ah), high digit 9 with
low 9 and 10, high digit 10, H, C. -/
theorem witness_DaaCorrectsTheAccumulator :
    (daa8 0x09 (fl 0 0 0 0 0)).res = 0x09 ∧
    (daa8 0x0A (fl 0 0 0 0 0)).res = 0x10 ∧
    (daa8 0x99 (fl 0 0 0 0 0)) = ⟨0x99, false, false⟩ ∧
    (daa8 0x9A (fl 0 0 0 0 0)) = ⟨0x00, true, true⟩ ∧
    (daa8 0xA0 (fl 0 0 0 0 0)) = ⟨0x00, true, false⟩ ∧
    (daa8 0x00 (fl 0 0 1 0 0)).res = 0x06 ∧
    (daa8 0x00 (fl 0 0 0 0 1)) = ⟨0x60, true, false⟩ := by decide
/-- 99 + 99 + 1 = 199, the largest operands, from a register and from memory; 0 + 0, the smallest. -/
theorem witness_DaaAfterAddIsDecimalAddition :
    let s := { load State.reset 0x2000 [0x99] with
      a := 0x99, b := 0x99, h := 0x20, flags := fl 0 0 0 0 1 }
    (s.a.toNat / 16 ≤ 9 ∧ s.a.toNat % 16 ≤ 9) ∧ s.reg .b = 0x99 ∧ s.memRead s.hl = 0x99 ∧
      (∃ t u, exec (.adcR .b) s = .next t ∧ exec .daa t = .next u ∧ u.a = 0x99 ∧ u.flags.c = true) ∧
      (∃ t u, exec .adcM s = .next t ∧ exec .daa t = .next u ∧ u.a = 0x99 ∧ u.flags.c = true) ∧
      (IsBcd 0x00 ∧ IsBcd 0x99 ∧ ¬ IsBcd 0x9A ∧ ¬ IsBcd 0xA0) :=
  ⟨by decide, by decide, by decide, ⟨_, _, rfl, rfl, by decide, by decide⟩,
    ⟨_, _, rfl, rfl, by decide, by decide⟩, by unfold IsBcd; decide⟩
/-- Each condition is true of some flags and false of others; P and M test S. -/
theorem witness_conditions :
    CondTrue .nz (fl 0 0 0 0 0) ∧ CondTrue .nc (fl 0 0 0 0 0) ∧
    CondTrue .po (fl 0 0 0 0 0) ∧ CondTrue .p (fl 0 0 0 1 0) ∧
    CondTrue .z (fl 0 1 0 0 0) ∧ CondTrue .c (fl 0 0 0 0 1) ∧
    CondTrue .pe (fl 0 0 0 1 0) ∧ CondTrue .m (fl 1 0 0 0 0) ∧
    ¬ CondTrue .p (fl 1 0 0 0 0) ∧ ¬ CondTrue .nz (fl 0 1 0 0 0) := by
  unfold CondTrue; decide
theorem witness_InAndOutExchangeTheAccumulator :
    { State.reset with ioAnswers := [0x5A, 0x01] }.ioAnswers = 0x5A :: [0x01] ∧
      (∃ t, exec (.inPort 0x10) { State.reset with ioAnswers := [0x5A, 0x01] } = .next t ∧
        t.a = 0x5A ∧ t.ioAnswers = [0x01]) ∧
      State.reset.ioAnswers = [] ∧
      ∃ t, exec (.inPort 0x10) State.reset = .next t ∧ t.ioAnswers = [] :=
  ⟨rfl, ⟨_, rfl, rfl, rfl⟩, rfl, _, rfl, rfl⟩

end Sys2Proof.Tests
end

section
/-! PROOFS. The 8-bit moves (40_move8.md): each is one register written or one byte stored, and the end
of the instruction. The frames of those updates come first, for every family that uses them; then what
each move answers, and the three statements. -/

namespace Sys2Proof.Machine

/-! ## Frames of the shared updates -/

theorem untouched_setReg (s : State) (r : Reg8) (v : Byte) : Untouched s (s.setReg r v) [r] where
  regs q hq := s.reg_setReg_other v (by simpa using hq)
  iff := by simp
  halted := by simp
  memMap := by simp
  ioAnswers := by simp
  history := by simp
  events := by simp

theorem untouched_memWrite (s : State) (x : Word) (v : Byte) : Untouched s (s.memWrite x v) [] where
  regs q _ := by simp
  iff := by simp
  halted := by simp
  memMap := by simp
  ioAnswers := by simp
  history := by simp
  events := by simp

theorem onlyRegs_setReg (s : State) (r : Reg8) (v : Byte) : OnlyRegs s (s.setReg r v) [r] :=
  ⟨untouched_setReg s r v, by simp, by simp, fun x => by simp⟩

/-- The end of an instruction adds nothing to what `OnlyRegs` lets differ. -/
theorem OnlyRegs.finish {s t : State} {w : List Reg8} (n : Nat) (h : OnlyRegs s t w) :
    OnlyRegs s (t.finish n) w := by
  obtain ⟨hu, hsp, hflags, hmem⟩ := h
  exact ⟨hu.finish n, hsp, hflags, hmem⟩

theorem StoresByte.finish {s t : State} {x : Word} {v : Byte} (n : Nat) (h : StoresByte s t x v) :
    StoresByte s (t.finish n) x v := h

/-! ## An instruction that writes one register, and one that stores one byte -/

/-- An instruction that answers the state with one register written, and ended: the register holds the
value, and nothing else differs. -/
theorem writes_register {i : Instr} {s : State} {r : Reg8} {v : Byte} {n : Nat}
    (h : exec i s = .next ((s.setReg r v).finish n)) :
    ∃ t, exec i s = .next t ∧ t.reg r = v ∧ OnlyRegs s t [r] :=
  ⟨_, h, by simp, (onlyRegs_setReg s r v).finish n⟩

/-- An instruction that answers the state with one byte stored, and ended: the byte stands there if the
address is RAM, and no other byte, register or flag differs. -/
theorem stores_byte {i : Instr} {s : State} {x : Word} {v : Byte} {n : Nat}
    (h : exec i s = .next ((s.memWrite x v).finish n)) :
    ∃ t, exec i s = .next t ∧
      StoresByte s t x v ∧ Untouched s t [] ∧ t.sp = s.sp ∧ t.flags = s.flags :=
  ⟨_, h, (storesByte_memWrite s x v).finish n, (untouched_memWrite s x v).finish n, by simp, by simp⟩

/-! ## What each move answers (R101 to R111) -/

theorem exec_movRR (rd rs : Reg8) (s : State) :
    exec (.movRR rd rs) s = .next ((s.setReg rd (s.reg rs)).finish 1) := rfl

theorem exec_mviR (rd : Reg8) (n : Byte) (s : State) :
    exec (.mviR rd n) s = .next ((s.setReg rd n).finish 2) := rfl

theorem exec_movRM (rd : Reg8) (s : State) :
    exec (.movRM rd) s = .next ((s.setReg rd (s.memRead s.hl)).finish 1) := rfl

theorem exec_ldaxB (s : State) :
    exec .ldaxB s = .next ((s.setReg .a (s.memRead s.bc)).finish 1) := rfl

theorem exec_ldaxD (s : State) :
    exec .ldaxD s = .next ((s.setReg .a (s.memRead s.de)).finish 1) := rfl

theorem exec_lda (nn : Word) (s : State) :
    exec (.lda nn) s = .next ((s.setReg .a (s.memRead nn)).finish 3) := rfl

theorem exec_movMR (rs : Reg8) (s : State) :
    exec (.movMR rs) s = .next ((s.memWrite s.hl (s.reg rs)).finish 1) := rfl

theorem exec_mviM (n : Byte) (s : State) :
    exec (.mviM n) s = .next ((s.memWrite s.hl n).finish 2) := rfl

theorem exec_staxB (s : State) : exec .staxB s = .next ((s.memWrite s.bc s.a).finish 1) := rfl

theorem exec_staxD (s : State) : exec .staxD s = .next ((s.memWrite s.de s.a).finish 1) := rfl

theorem exec_sta (nn : Word) (s : State) :
    exec (.sta nn) s = .next ((s.memWrite nn s.a).finish 3) := rfl

/-! ## The statements -/

/-- Settles O27: both answer one register written, `rd = rs` included. -/
theorem movAndMviWriteTheRegister : Obligations.MovAndMviWriteTheRegister := by
  refine ⟨fun rd rs => ?movColumns, fun rd n => ?mviColumns, fun rd rs s => ?mov, fun rd n s => ?mvi⟩
  case movColumns => exact ⟨rfl, fun _ => ⟨rfl, rfl⟩⟩
  case mviColumns => exact ⟨rfl, fun _ => ⟨rfl, rfl⟩⟩
  case mov => exact writes_register (exec_movRR rd rs s)
  case mvi => exact writes_register (exec_mviR rd n s)

/-- Settles O28: all four answer one register written, its value read in the state before the write; A
is the register of the last three. -/
theorem byteLoadsWriteTheRegister : Obligations.ByteLoadsWriteTheRegister := by
  refine ⟨fun rd => ?movColumns, ?ldaxBColumns, ?ldaxDColumns, fun rd s => ?mov, fun s => ?ldaxB,
    fun s => ?ldaxD, fun nn s => ?lda⟩
  case movColumns => exact ⟨rfl, fun _ => ⟨rfl, rfl⟩⟩
  case ldaxBColumns => exact ⟨rfl, fun _ => ⟨rfl, rfl⟩⟩
  case ldaxDColumns => exact ⟨rfl, fun _ => ⟨rfl, rfl⟩⟩
  case mov => exact writes_register (exec_movRM rd s)
  case ldaxB => exact writes_register (exec_ldaxB s)
  case ldaxD => exact writes_register (exec_ldaxD s)
  case lda => exact writes_register (exec_lda nn s)

/-- Settles O29: all five answer one byte stored, the byte and its address taken from the state before
the write. -/
theorem byteStoresWriteTheByte : Obligations.ByteStoresWriteTheByte := by
  refine ⟨fun rs => ?movColumns, fun n => ?mviColumns, ?staxBColumns, ?staxDColumns,
    fun rs s => ?mov, fun n s => ?mvi, fun s => ?staxB, fun s => ?staxD, fun nn s => ?sta⟩
  case movColumns => exact ⟨rfl, fun _ => ⟨rfl, rfl⟩⟩
  case mviColumns => exact ⟨rfl, fun _ => ⟨rfl, rfl⟩⟩
  case staxBColumns => exact ⟨rfl, fun _ => ⟨rfl, rfl⟩⟩
  case staxDColumns => exact ⟨rfl, fun _ => ⟨rfl, rfl⟩⟩
  case mov => exact stores_byte (exec_movMR rs s)
  case mvi => exact stores_byte (exec_mviM n s)
  case staxB => exact stores_byte (exec_staxB s)
  case staxD => exact stores_byte (exec_staxD s)
  case sta => exact stores_byte (exec_sta nn s)

end Sys2Proof.Machine
end

section
/-! PROOFS. The complement of the accumulator (42_alu8.md R187): one register written, with the bits of
the complement. -/

namespace Sys2Proof.Machine

theorem exec_cma (s : State) : exec .cma s = .next ((s.setReg .a (~~~s.a)).finish 1) := rfl

/-- Settles O46: CMA answers one register written, A, and each bit of the complement is the opposite of
the bit of the old A. -/
theorem cmaInvertsTheAccumulator : Obligations.CmaInvertsTheAccumulator := by
  refine ⟨?columns, fun s => ?cma⟩
  case columns => exact ⟨rfl, fun _ => ⟨rfl, rfl⟩⟩
  case cma =>
    obtain ⟨t, hexec, ha, hframe⟩ := writes_register (exec_cma s)
    rw [State.reg_a] at ha
    refine ⟨t, hexec, fun k hk => ?_, hframe⟩
    rw [ha, BitVec.getLsbD_not, decide_eq_true hk, Bool.true_and]

end Sys2Proof.Machine
end

section
/-! PROOFS. The two carry instructions (44_cpu_control.md R221, R222): one flag written, the carry. -/

namespace Sys2Proof.Machine

theorem untouched_setCarry (s : State) (v : Bool) : Untouched s (s.setCarry v) [] where
  regs q _ := by simp
  iff := by simp
  halted := by simp
  memMap := by simp
  ioAnswers := by simp
  history := by simp
  events := by simp

theorem onlyRegsAndFlags_setCarry (s : State) (v : Bool) : OnlyRegsAndFlags s (s.setCarry v) [] :=
  ⟨untouched_setCarry s v, by simp, fun x => by simp⟩

/-- The end of an instruction adds nothing to what `OnlyRegsAndFlags` lets differ. -/
theorem OnlyRegsAndFlags.finish {s t : State} {w : List Reg8} (n : Nat)
    (h : OnlyRegsAndFlags s t w) : OnlyRegsAndFlags s (t.finish n) w := by
  obtain ⟨hu, hsp, hmem⟩ := h
  exact ⟨hu.finish n, hsp, hmem⟩

/-- An instruction that answers the state with the carry written, and ended: C is the value, and neither
another flag nor anything else differs. -/
theorem writes_carry {i : Instr} {s : State} {v : Bool} {n : Nat}
    (h : exec i s = .next ((s.setCarry v).finish n)) :
    ∃ t, exec i s = .next t ∧ t.flags.c = v ∧ t.flags.s = s.flags.s ∧ t.flags.z = s.flags.z ∧
      t.flags.h = s.flags.h ∧ t.flags.p = s.flags.p ∧ OnlyRegsAndFlags s t [] :=
  ⟨_, h, by simp, by simp, by simp, by simp, by simp, (onlyRegsAndFlags_setCarry s v).finish n⟩

theorem exec_cmc (s : State) : exec .cmc s = .next ((s.setCarry (!s.flags.c)).finish 1) := rfl

theorem exec_stc (s : State) : exec .stc s = .next ((s.setCarry true).finish 1) := rfl

/-- Settles O49: both answer the carry written, CMC with the complement of the old one. -/
theorem cmcAndStcWriteOnlyCarry : Obligations.CmcAndStcWriteOnlyCarry := by
  refine ⟨?cmcColumns, ?stcColumns, fun s => ?cmc, fun s => ?stc⟩
  case cmcColumns => exact ⟨rfl, fun _ => ⟨rfl, rfl⟩⟩
  case stcColumns => exact ⟨rfl, fun _ => ⟨rfl, rfl⟩⟩
  case cmc => exact writes_carry (exec_cmc s)
  case stc => exact writes_carry (exec_stc s)

end Sys2Proof.Machine
end

section
/-! PROOFS. The two jumps that test no flag (45_jump.md R231, R240): pc is assigned, and nothing is
written. -/

namespace Sys2Proof.Machine

/-- An instruction that answers the state with pc assigned: pc is the target, and nothing else
differs. -/
theorem jumps_to {i : Instr} {s : State} {target : Word} (h : exec i s = .next (s.goto target)) :
    ∃ t, exec i s = .next t ∧ t.pc = target ∧ OnlyRegs s t [] :=
  ⟨_, h, s.goto_pc target, onlyRegs_goto s target⟩

theorem exec_jmp (nn : Word) (s : State) : exec (.jmp nn) s = .next (s.goto nn) := rfl

/-- The target of PCHL is the value of the pair itself: no `memRead` stands in it. -/
theorem exec_pchl (s : State) : exec .pchl s = .next (s.goto (join s.h s.l)) := rfl

/-- Settles O52: both answer pc assigned, JMP with its operand and PCHL with the pair HL. -/
theorem jmpAndPchlAssignPc : Obligations.JmpAndPchlAssignPc := by
  refine ⟨?pchlColumns, fun nn s => ?jmp, fun s => ?pchl⟩
  case pchlColumns => exact ⟨rfl, fun _ => ⟨rfl, rfl⟩⟩
  case jmp => exact jumps_to (exec_jmp nn s)
  case pchl => exact jumps_to (exec_pchl s)

end Sys2Proof.Machine
end

section
/-! PROOFS. The decoder and the encoder (30_encoding.md). Encoding and then decoding is one case for each
format; the converse goes row by row through the opcode table: whatever a row reads, the encoder writes
with the same opcode byte and operands. -/

namespace Sys2Proof

open Sys2Proof.Machine (hi lo join lo_join hi_join join_hi_lo)

/-! ## Decoding what the encoder writes: one lemma for each format (R80) -/

theorem decode_formatF1 {op : Byte} {i : Instr} (rest : List Byte)
    (h : ∀ b2 b3, decodeInstr op b2 b3 = some i) (hl : i.length = 1) :
    decode (formatF1 op ++ rest) = .ok (i, rest) := by
  simp [decode, formatF1, h, hl]

theorem decode_formatF2 {op n : Byte} {i : Instr} (rest : List Byte)
    (h : ∀ b3, decodeInstr op n b3 = some i) (hl : i.length = 2) :
    decode (formatF2 op n ++ rest) = .ok (i, rest) := by
  simp [decode, formatF2, h, hl]

/-- The operand's low byte is read first (R84), so that the two bytes join to the word encoded. -/
theorem decode_formatF3 {op : Byte} {nn : Word} {f : Word → Instr} (rest : List Byte)
    (h : ∀ b2 b3, decodeInstr op b2 b3 = some (f (join b3 b2))) (hl : (f nn).length = 3) :
    decode (formatF3 op nn ++ rest) = .ok (f nn, rest) := by
  simp [decode, formatF3, h, hl]

/-- A well-formed restart number is the field `ttt` the encoder writes (R90). -/
theorem decodeInstr_rst {k : Nat} (hk : k < 8) (b2 b3 : Byte) :
    decodeInstr (pattern 0b11 (BitVec.ofNat 3 k) 0b111) b2 b3 = some (.rst k) := by
  interval_cases k <;> rfl

/-- Settles O1: by the format of each constructor's encoding; where the opcode byte holds a register
field, by the register too. -/
theorem decodeInvertsEncode : Obligations.DecodeInvertsEncode := by
  intro i rest hwf
  cases i with
  | movRR rd rs => cases rd <;> cases rs <;> exact decode_formatF1 rest (fun _ _ => rfl) rfl
  | movRM r | movMR r | addR r | adcR r | subR r | sbbR r | cmpR r | anaR r | oraR r | xraR r | inrR r
  | dcrR r => cases r <;> exact decode_formatF1 rest (fun _ _ => rfl) rfl
  | mviR rd n => cases rd <;> exact decode_formatF2 rest (fun _ => rfl) rfl
  | mviM | adi | aci | sui | sbi | cpi | ani | ori | xri | inPort | outPort =>
    exact decode_formatF2 rest (fun _ => rfl) rfl
  | lda | sta | lxiB | lxiD | lxiH | lxiSP | lhld | shld | jmp | jnz | jz | jnc | jc | jpo | jpe | jp
  | jm | call | cnz | cz | cnc | cc | cpo | cpe | cp | cm =>
    exact decode_formatF3 rest (fun _ _ => rfl) rfl
  | rst k => exact decode_formatF1 rest (decodeInstr_rst (of_decide_eq_true hwf)) rfl
  | _ => exact decode_formatF1 rest (fun _ _ => rfl) rfl

/-! ## What a row reads, the encoder writes -/

/-- What the row reads is well formed, and its encoding is the opcode byte read with no operand, the byte
operand or the word operand. -/
def OpcodeRow.Sound (row : OpcodeRow) : Prop :=
  ∀ op n nn i, row.read op n nn = some i →
    i.WellFormed ∧ (encode i = formatF1 op ∨ encode i = formatF2 op n ∨ encode i = formatF3 op nn)

theorem OpcodeRow.read_eq_some_iff {row : OpcodeRow} {op n : Byte} {nn : Word} {i : Instr} :
    row.read op n nn = some i ↔ op &&& row.mask = row.value ∧ row.build op n nn = some i := by
  simp [OpcodeRow.read]

/-! Soundness of a row, by the shape of the row. -/

namespace OpcodeRow.Sound

/-- A row that fixes the whole opcode byte is sound if the instruction it builds is. -/
theorem of_full_mask {v : Byte} {f : Byte → Word → Instr}
    (h : ∀ n nn, (f n nn).WellFormed ∧ (encode (f n nn) = formatF1 v ∨ encode (f n nn) = formatF2 v n ∨
      encode (f n nn) = formatF3 v nn)) : OpcodeRow.Sound ⟨0xFF, v, fun _ n nn => some (f n nn)⟩ := by
  intro op n nn i hread
  obtain ⟨hop, hbuild⟩ := OpcodeRow.read_eq_some_iff.mp hread
  obtain rfl := eq_of_full_mask hop
  obtain rfl := Option.some.inj hbuild
  exact h n nn

theorem noOperand {v : Byte} {i : Instr}
    (h : i.WellFormed ∧ encode i = formatF1 v := by exact ⟨rfl, rfl⟩) :
    OpcodeRow.Sound ⟨0xFF, v, fun _ _ _ => some i⟩ :=
  of_full_mask fun _ _ => ⟨h.1, .inl h.2⟩

theorem byteOperand {v : Byte} {f : Byte → Instr}
    (h : ∀ n, (f n).WellFormed ∧ encode (f n) = formatF2 v n := by exact fun _ => ⟨rfl, rfl⟩) :
    OpcodeRow.Sound ⟨0xFF, v, fun _ n _ => some (f n)⟩ :=
  of_full_mask fun n _ => ⟨(h n).1, .inr (.inl (h n).2)⟩

theorem wordOperand {v : Byte} {f : Word → Instr}
    (h : ∀ nn, (f nn).WellFormed ∧ encode (f nn) = formatF3 v nn := by exact fun _ => ⟨rfl, rfl⟩) :
    OpcodeRow.Sound ⟨0xFF, v, fun _ _ nn => some (f nn)⟩ :=
  of_full_mask fun _ nn => ⟨(h nn).1, .inr (.inr (h nn).2)⟩

/-- The bits a row with a field `ddd` leaves free are that field. -/
theorem eq_pattern_of_mask_C7 : ∀ op : Byte,
    op = pattern ((op &&& 0xC7).extractLsb' 6 2) (midField op) (lowField (op &&& 0xC7)) := by
  decide

/-- The bits a row with a field `sss` leaves free are that field. -/
theorem eq_pattern_of_mask_F8 : ∀ op : Byte,
    op = pattern ((op &&& 0xF8).extractLsb' 6 2) (midField (op &&& 0xF8)) (lowField op) := by
  decide

/-- The bits the row of MOV leaves free are both fields. -/
theorem eq_pattern_of_mask_C0 : ∀ op : Byte,
    op = pattern ((op &&& 0xC0).extractLsb' 6 2) (midField op) (lowField op) := by
  decide

/-- A row with the field `ddd`, with or without a byte operand. -/
theorem dst {v : Byte} {f : Byte → Reg8 → Instr}
    (h : ∀ n r, (f n r).WellFormed ∧
      (encode (f n r) = formatF1 (pattern (v.extractLsb' 6 2) r.code (lowField v)) ∨
        encode (f n r) = formatF2 (pattern (v.extractLsb' 6 2) r.code (lowField v)) n)) :
    OpcodeRow.Sound ⟨0xC7, v, fun op n _ => withDst op (f n)⟩ := by
  intro op n nn i hread
  obtain ⟨hop, hbuild⟩ := OpcodeRow.read_eq_some_iff.mp hread
  obtain ⟨r, hr, rfl⟩ := Option.map_eq_some_iff.mp hbuild
  have hpat := eq_pattern_of_mask_C7 op
  rw [hop, ← Reg8.code_of_ofCode hr] at hpat
  obtain ⟨hwf, henc⟩ := h n r
  rw [← hpat] at henc
  exact ⟨hwf, henc.imp_right .inl⟩

/-- A row with the field `sss`. -/
theorem src {v : Byte} {f : Reg8 → Instr}
    (h : ∀ r, (f r).WellFormed ∧
      encode (f r) = formatF1 (pattern (v.extractLsb' 6 2) (midField v) r.code) := by
        exact fun _ => ⟨rfl, rfl⟩) :
    OpcodeRow.Sound ⟨0xF8, v, fun op _ _ => withSrc op f⟩ := by
  intro op n nn i hread
  obtain ⟨hop, hbuild⟩ := OpcodeRow.read_eq_some_iff.mp hread
  obtain ⟨r, hr, rfl⟩ := Option.map_eq_some_iff.mp hbuild
  have hpat := eq_pattern_of_mask_F8 op
  rw [hop, ← Reg8.code_of_ofCode hr] at hpat
  obtain ⟨hwf, henc⟩ := h r
  rw [← hpat] at henc
  exact ⟨hwf, .inl henc⟩

/-- The row of MOV between registers, with both fields. -/
theorem movRR : OpcodeRow.Sound
    ⟨0xC0, 0x40, fun op _ _ => (Reg8.ofCode (midField op)).bind fun rd => withSrc op (.movRR rd)⟩ := by
  intro op n nn i hread
  obtain ⟨hop, hbuild⟩ := OpcodeRow.read_eq_some_iff.mp hread
  obtain ⟨rd, hrd, hbuild⟩ := Option.bind_eq_some_iff.mp hbuild
  obtain ⟨rs, hrs, rfl⟩ := Option.map_eq_some_iff.mp hbuild
  have hpat := eq_pattern_of_mask_C0 op
  rw [hop, ← Reg8.code_of_ofCode hrd, ← Reg8.code_of_ofCode hrs] at hpat
  exact ⟨rfl, .inl (congrArg formatF1 hpat.symm)⟩

/-- The row of RST: the restart number is the field `ttt`, so it is below 8. -/
theorem rst : OpcodeRow.Sound ⟨0xC7, 0xC7, fun op _ _ => some (.rst (midField op).toNat)⟩ := by
  intro op n nn i hread
  obtain ⟨hop, hbuild⟩ := OpcodeRow.read_eq_some_iff.mp hread
  obtain rfl := Option.some.inj hbuild
  have hpat := eq_pattern_of_mask_C7 op
  rw [hop] at hpat
  refine ⟨decide_eq_true (midField op).isLt, .inl ?_⟩
  simp only [encode, BitVec.ofNat_toNat, BitVec.setWidth_eq]
  exact congrArg formatF1 hpat.symm

end OpcodeRow.Sound

/-! The rows of each part of the table, in the table's order. -/

theorem move8Rows_sound : ∀ row ∈ move8Rows, row.Sound := by
  simp only [move8Rows, List.forall_mem_cons]
  exact ⟨.movRR, .dst fun _ _ => ⟨rfl, .inr rfl⟩, .dst fun _ _ => ⟨rfl, .inl rfl⟩,
    .src, .byteOperand, .noOperand, .noOperand, .wordOperand, .noOperand, .noOperand, .wordOperand,
    List.forall_mem_nil _⟩

theorem move16Rows_sound : ∀ row ∈ move16Rows, row.Sound := by
  simp only [move16Rows, List.forall_mem_cons]
  exact ⟨.wordOperand, .wordOperand, .wordOperand, .wordOperand, .wordOperand, .wordOperand,
    .noOperand, .noOperand, .noOperand, .noOperand, .noOperand, .noOperand, .noOperand, .noOperand,
    .noOperand, .noOperand, .noOperand, List.forall_mem_nil _⟩

theorem alu8Rows_sound : ∀ row ∈ alu8Rows, row.Sound := by
  simp only [alu8Rows, List.forall_mem_cons]
  exact ⟨.src, .byteOperand, .noOperand, .src, .byteOperand, .noOperand, .src, .byteOperand,
    .noOperand, .src, .byteOperand, .noOperand, .src, .byteOperand, .noOperand, .src, .byteOperand,
    .noOperand, .src, .byteOperand, .noOperand, .src, .byteOperand, .noOperand,
    .dst fun _ _ => ⟨rfl, .inl rfl⟩, .noOperand, .dst fun _ _ => ⟨rfl, .inl rfl⟩, .noOperand,
    .noOperand, .noOperand, List.forall_mem_nil _⟩

theorem arith16Rows_sound : ∀ row ∈ arith16Rows, row.Sound := by
  simp only [arith16Rows, List.forall_mem_cons, List.not_mem_nil, false_implies, implies_true,
    and_true]
  and_intros <;> exact .noOperand

theorem controlRows_sound : ∀ row ∈ controlRows, row.Sound := by
  simp only [controlRows, List.forall_mem_cons, List.not_mem_nil, false_implies, implies_true,
    and_true]
  and_intros <;> exact .noOperand

theorem jumpRows_sound : ∀ row ∈ jumpRows, row.Sound := by
  simp only [jumpRows, List.forall_mem_cons]
  exact ⟨.wordOperand, .wordOperand, .wordOperand, .wordOperand, .wordOperand, .wordOperand,
    .wordOperand, .wordOperand, .wordOperand, .noOperand, List.forall_mem_nil _⟩

theorem callRows_sound : ∀ row ∈ callRows, row.Sound := by
  simp only [callRows, List.forall_mem_cons]
  exact ⟨.wordOperand, .wordOperand, .wordOperand, .wordOperand, .wordOperand, .wordOperand,
    .wordOperand, .wordOperand, .wordOperand, .noOperand, .noOperand, .noOperand, .noOperand,
    .noOperand, .noOperand, .noOperand, .noOperand, .noOperand, .rst, List.forall_mem_nil _⟩

theorem rotateRows_sound : ∀ row ∈ rotateRows, row.Sound := by
  simp only [rotateRows, List.forall_mem_cons, List.not_mem_nil, false_implies, implies_true,
    and_true]
  and_intros <;> exact .noOperand

theorem ioRows_sound : ∀ row ∈ ioRows, row.Sound := by
  simp only [ioRows, List.forall_mem_cons, List.not_mem_nil, false_implies, implies_true,
    and_true]
  and_intros <;> exact .byteOperand

theorem opcodeRows_sound : ∀ row ∈ opcodeRows, row.Sound := by
  simp only [opcodeRows, List.forall_mem_append]
  exact ⟨⟨⟨⟨⟨⟨⟨⟨move8Rows_sound, move16Rows_sound⟩, alu8Rows_sound⟩, arith16Rows_sound⟩,
    controlRows_sound⟩, jumpRows_sound⟩, callRows_sound⟩, rotateRows_sound⟩, ioRows_sound⟩

/-! ## What the decoder reads -/

open Laws.EncodeLength in
/-- The encoder's length and opcode facts of Laws/PerInstr.lean, for every constructor in its order. -/
theorem encodeLength_statement (i : Instr) : Statement i := by
  cases i
  exacts [movRR _ _, mviR _ _, movRM _, movMR _, mviM _, ldaxB, ldaxD, lda _, staxB, staxD, sta _,
    lxiB _, lxiD _, lxiH _, lxiSP _, lhld _, shld _, sphl, xchg, xthl, pushB, pushD, pushH, pushPSW,
    popB, popD, popH, popPSW, addR _, adi _, addM, adcR _, aci _, adcM, subR _, sui _, subM, sbbR _,
    sbi _, sbbM, cmpR _, cpi _, cmpM, anaR _, ani _, anaM, oraR _, ori _, oraM, xraR _, xri _, xraM,
    inrR _, inrM, dcrR _, dcrM, daa, cma, dadB, dadD, dadH, dadSP, inxB, inxD, inxH, inxSP, dcxB,
    dcxD, dcxH, dcxSP, cmc, stc, nop, hlt, di, ei, jmp _, jnz _, jz _, jnc _, jc _, jpo _, jpe _,
    jp _, jm _, pchl, call _, cnz _, cz _, cnc _, cc _, cpo _, cpe _, cp _, cm _, ret, rnz, rz, rnc,
    rc, rpo, rpe, rp, rm, rst _, rlc, ral, rrc, rar, inPort _, outPort _]

theorem encode_length (i : Instr) : (encode i).length = i.length := (encodeLength_statement i).1

/-- Whatever the decoder reads is well formed, its encoding is as many of the bytes read as its length
says, and these are one to three (R80). -/
theorem decodeInstr_sound {op b2 b3 : Byte} {i : Instr} (h : decodeInstr op b2 b3 = some i) :
    i.WellFormed ∧ encode i = [op, b2, b3].take i.length ∧ 1 ≤ i.length ∧ i.length ≤ 3 := by
  obtain ⟨row, hrow, hread⟩ := exists_row_of_decodeInstr h
  obtain ⟨hwf, henc⟩ := opcodeRows_sound row hrow _ _ _ _ hread
  refine ⟨hwf, ?_⟩
  rw [← encode_length]
  rcases henc with e | e | e <;> simp [e, formatF1, formatF2, formatF3]

/-- What an accepting decoder has found: the instruction of the front bytes, and that none is missing. -/
theorem decode_cons_eq_ok {op : Byte} {tail rest : List Byte} {i : Instr}
    (h : decode (op :: tail) = .ok (i, rest)) :
    decodeInstr op (tail.getD 0 0) (tail.getD 1 0) = some i ∧ i.length ≤ tail.length + 1 ∧
      rest = tail.drop (i.length - 1) := by
  simp only [decode] at h
  split at h
  next => cases h
  next j hj =>
    split at h
    next => cases h
    next hlen =>
      cases h
      exact ⟨hj, by omega, rfl⟩

/-- The front bytes of a list and the rest of it, as the decoder takes them apart. -/
theorem take_append_drop_getD (op : Byte) (tail : List Byte) {k : Nat} (h1 : 1 ≤ k) (h3 : k ≤ 3)
    (hk : k ≤ tail.length + 1) :
    op :: tail = [op, tail.getD 0 0, tail.getD 1 0].take k ++ tail.drop (k - 1) := by
  match tail with
  | [] => interval_cases k <;> simp_all
  | [_] => interval_cases k <;> simp_all
  | _ :: _ :: _ => interval_cases k <;> simp

/-- Settles O2: the row that reads the instruction is sound, and what is left over is the rest of the
list. -/
theorem encodeInvertsDecode : Obligations.EncodeInvertsDecode := by
  intro bytes rest i h
  cases bytes with
  | nil => cases h
  | cons op tail =>
    obtain ⟨hread, hlen, rfl⟩ := decode_cons_eq_ok h
    obtain ⟨hwf, henc, h1, h3⟩ := decodeInstr_sound hread
    exact ⟨hwf, henc ▸ take_append_drop_getD op tail h1 h3 hlen⟩

/-! ## The opcode byte alone decides -/

/-- Whether a row reads its opcode byte does not depend on the operands. -/
def OpcodeRow.ByOpcode (row : OpcodeRow) : Prop :=
  ∀ op n nn n' nn', (row.read op n nn).isSome = (row.read op n' nn').isSome

theorem OpcodeRow.byOpcode_of_build {row : OpcodeRow}
    (h : ∀ op n nn n' nn', (row.build op n nn).isSome = (row.build op n' nn').isSome) :
    row.ByOpcode := by
  intro op n nn n' nn'
  simp only [OpcodeRow.read]
  split
  · exact h op n nn n' nn'
  · rfl

theorem opcodeRows_byOpcode : ∀ row ∈ opcodeRows, row.ByOpcode := by
  intro row hrow
  refine OpcodeRow.byOpcode_of_build fun op n nn n' nn' => ?_
  revert row
  simp [opcodeRows, move8Rows, move16Rows, alu8Rows, arith16Rows, controlRows, jumpRows, callRows,
    rotateRows, ioRows, withDst, withSrc, List.forall_mem_cons, -List.mem_cons]

/-- Settles O3: the operands do not matter, so the 256 opcode bytes are all there is to count. -/
theorem opcodeRowsPartitionTheOpcodes : Obligations.OpcodeRowsPartitionTheOpcodes := by
  refine ⟨rfl, fun op n nn => ?_⟩
  have hcount : ∀ op : Byte, (opcodeRows.filter fun row => (row.read op 0 0).isSome).length =
      if op ∈ undefinedOpcodes then 0 else 1 := by decide +kernel
  rw [← hcount op]
  exact congrArg List.length
    (List.filter_congr fun row hrow => opcodeRows_byOpcode row hrow op n nn 0 0)

/-- The decoder accepts exactly the opcode values outside the twelve of R87: some row reads them. -/
theorem decodeInstr_isSome_iff (op b2 b3 : Byte) :
    (decodeInstr op b2 b3).isSome ↔ op ∉ undefinedOpcodes := by
  have hcount := opcodeRowsPartitionTheOpcodes.2 op b2 (join b3 b2)
  rw [decodeInstr, List.isSome_findSome?, List.any_eq_true, ← List.length_filter_pos_iff, hcount]
  split <;> simp_all

/-- What the decoder reads has the length of its opcode byte (R80). -/
theorem length_of_decodeInstr {op b2 b3 : Byte} {i : Instr} (h : decodeInstr op b2 b3 = some i) :
    i.length = lengthOfOpcode op := by
  obtain ⟨-, henc, h1, -⟩ := decodeInstr_sound h
  refine ((encodeLength_statement i).2 op ?_).symm
  rw [henc, List.head?_take, if_neg (by omega)]
  rfl

/-- Settles O4: what the decoder reads is encoded by the bytes read; whether it reads and how many bytes
follow from the opcode byte; the three numbers are counted. -/
theorem opcodeAloneFixesLengthAndFormat : Obligations.OpcodeAloneFixesLengthAndFormat := by
  refine ⟨fun op b2 b3 i h => ?format, fun op b2 b3 c2 c3 => ?opcode, ?counts⟩
  case format =>
    obtain ⟨-, henc, h1, h3⟩ := decodeInstr_sound h
    exact ⟨length_of_decodeInstr h, h1, h3, henc⟩
  case opcode =>
    have hsome : (decodeInstr op b2 b3).isSome = (decodeInstr op c2 c3).isSome :=
      Bool.eq_iff_iff.mpr (by simp only [decodeInstr_isSome_iff])
    refine ⟨hsome, ?_⟩
    cases hb : decodeInstr op b2 b3 with
    | none => simp_all
    | some i =>
      obtain ⟨j, hc⟩ := Option.isSome_iff_exists.mp (hsome.symm.trans (by rw [hb]; rfl))
      simp [hc, length_of_decodeInstr hb, length_of_decodeInstr hc]
  case counts => decide +kernel

/-- Settles O5: the decoder run on each of the words. -/
theorem sampleWordsDecode : Obligations.SampleWordsDecode :=
  ⟨rfl, rfl, rfl, rfl, rfl, rfl, rfl, rfl, rfl⟩

end Sys2Proof
end

section
/-! PROOFS. What every instruction and every step keeps. Three facts are said once, for all 111
constructors: what an instruction's answer leaves alone, which writes to memory it is made of, and where
pc goes on. The whole-machine rules follow from them. -/

namespace Sys2Proof.Machine

/-! ## The frame of an instruction -/

/-- The five instructions that write more than registers, flags, SP, pc and memory: HLT, DI and EI write
control bits, IN and OUT the history. -/
def writesControl : Instr → Bool
  | .hlt | .di | .ei | .inPort _ | .outPort _ => true
  | _ => false

/-- What an instruction that goes on leaves as it was: every answer is built from the shared updates, and
none of them writes these components. -/
theorem exec_frame {i : Instr} {s t : State} (h : exec i s = .next t) (hi : writesControl i = false) :
    t.iff = s.iff ∧ t.halted = s.halted ∧ t.intInhibit = false ∧ t.memMap = s.memMap ∧
      t.ioAnswers = s.ioAnswers ∧ t.history = s.history := by
  cases i with
  | hlt | di | ei | inPort | outPort => cases hi
  | _ => cases h; simp

/-- Settles O9: every arm answers a next state. -/
theorem everyInstructionCompletes : Obligations.EveryInstructionCompletes := by
  intro i s
  cases i <;> exact ⟨_, rfl⟩

/-- Settles O19: the other 109 leave the history alone; IN records the answer that A then holds. -/
theorem historyRecordsPortAccesses : Obligations.HistoryRecordsPortAccesses := by
  intro i s t h
  refine ⟨?read, ?write, ?other⟩
  case read => rintro n rfl; cases h; rfl
  case write => rintro n rfl; cases h; rfl
  case other =>
    intro hin hout
    cases i with
    | inPort n => exact absurd rfl (hin n)
    | outPort n => exact absurd rfl (hout n)
    | hlt | di | ei => cases h; exact ⟨rfl, rfl⟩
    | _ =>
      obtain ⟨-, -, -, -, hanswers, hhistory⟩ := exec_frame h rfl
      exact ⟨hhistory, hanswers⟩

/-- Settles O20: EI and DI set int_inhibit after the end of the instruction has cleared it. -/
theorem inhibitFollowsEiAndDi : Obligations.InhibitFollowsEiAndDi := by
  intro i s t h
  cases i with
  | ei | di | hlt | inPort | outPort => cases h; simp
  | _ => simp [exec_frame h rfl]

/-- Settles O21. -/
theorem controlBitsHaveOnlyTheirWriters : Obligations.ControlBitsHaveOnlyTheirWriters := by
  intro i s t h
  cases i with
  | ei | di | hlt | inPort | outPort => cases h; simp
  | _ => simp [exec_frame h rfl]

/-- The map is the same after every instruction. -/
theorem exec_memMap {i : Instr} {s t : State} (h : exec i s = .next t) : t.memMap = s.memMap := by
  cases i with
  | ei | di | hlt | inPort | outPort => cases h; simp
  | _ => simp [exec_frame h rfl]

/-! ## The writes an instruction is made of -/

/-- The state after a list of writes, each through the map, in order. -/
def State.storeAll (s : State) : List (Word × Byte) → State
  | [] => s
  | (x, v) :: l => (s.memWrite x v).storeAll l

theorem State.storeAll_wf (s : State) (l : List (Word × Byte)) (h : Memory.wf s.mem = true) :
    Memory.wf (s.storeAll l).mem = true := by
  induction l generalizing s with
  | nil => exact h
  | cons p l ih => exact ih _ (s.memWrite_wf p.1 p.2 h)

theorem State.byteAt_storeAll_of_not_ram (s : State) (l : List (Word × Byte)) {x : Word}
    (h : s.kindAt x ≠ .ram) : (s.storeAll l).byteAt x = s.byteAt x := by
  induction l generalizing s with
  | nil => rfl
  | cons p l ih =>
    exact (ih _ (by simpa using h)).trans (s.byteAt_memWrite_of_not_ram p.1 p.2 h)

theorem State.byteAt_storeAll_of_not_mem (s : State) (l : List (Word × Byte)) {x : Word}
    (h : x ∉ l.map Prod.fst) : (s.storeAll l).byteAt x = s.byteAt x := by
  induction l generalizing s with
  | nil => rfl
  | cons p l ih =>
    obtain ⟨hp, hl⟩ := not_or.mp (mt List.mem_cons.mpr h)
    exact (ih _ hl).trans (s.byteAt_memWrite_other p.2 hp)

/-- A push writes the two halves of its word below SP (00_scope.md R13). -/
theorem State.push16_mem (s : State) (v : Word) :
    (s.push16 v).mem = (s.storeAll [(s.sp - 1, hi v), (s.sp - 2, lo v)]).mem := by
  rw [State.push16_eq, sub_one_sub_one]; rfl

/-- A register written does not touch a write to memory. -/
theorem State.memWrite_setReg (s : State) (r : Reg8) (w : Byte) (x : Word) (v : Byte) :
    (s.setReg r w).memWrite x v = (s.memWrite x v).setReg r w := by
  by_cases hk : s.kindAt x = .ram
  · rw [State.memWrite_of_ram s v hk, State.memWrite_of_ram _ v (by simpa using hk)]
    cases r <;> rfl
  · rw [State.memWrite_of_not_ram s v hk, State.memWrite_of_not_ram _ v (by simpa using hk)]

theorem State.setHL_join (s : State) (x y : Byte) :
    s.setHL (join x y) = (s.setReg .h x).setReg .l y := by
  simp [State.setHL, State.setReg]

/-- XTHL reads both bytes of the stack top as they were, for neither write falls on the other's address
(41_move16.md R129). -/
theorem exec_xthl (s : State) : exec .xthl s =
    .next ((((s.memWrite (s.sp + 1) s.h).memWrite s.sp s.l).setHL
      (join (s.memRead (s.sp + 1)) (s.memRead s.sp))).finish 1) := by
  have hread : (s.memWrite (s.sp + 1#16) s.h).memRead s.sp = s.memRead s.sp :=
    s.memRead_memWrite_other s.h (ne_add_one s.sp)
  simp [exec, execXthl, State.memWrite_setReg, State.setHL_join, hread]

/-- A conditional call writes what CALL writes, or nothing. -/
theorem State.callIf_stores (s : State) (k : Cond) (target : Word) :
    ∃ l : List (Word × Byte),
      l.map Prod.fst = (if k.holds s.flags then [s.sp - 1, s.sp - 2] else []) ∧
        (s.callIf k target).mem = (s.storeAll l).mem := by
  rcases s.callIf_cases k target with ⟨hk, hcall⟩ | ⟨hk, hcall⟩ <;> rw [hcall, hk]
  · exact ⟨[(_, _), (_, _)], rfl, s.push16_mem _⟩
  · exact ⟨[], rfl, rfl⟩

/-- The memory after an instruction is the old one with the addresses listed for it written, in the order
of the list (20_memory.md R55). -/
theorem exec_stores {i : Instr} {s t : State} (h : exec i s = .next t) :
    ∃ l : List (Word × Byte), l.map Prod.fst = storedAddresses i s ∧ t.mem = (s.storeAll l).mem := by
  cases i with
  | movMR | mviM | staxB | staxD | sta | inrM | dcrM => cases h; exact ⟨[(_, _)], rfl, rfl⟩
  | shld => cases h; exact ⟨[(_, _), (_, _)], rfl, rfl⟩
  | xthl =>
    rw [exec_xthl] at h
    cases h; exact ⟨[(_, _), (_, _)], rfl, rfl⟩
  | pushB | pushD | pushH | pushPSW | call | rst =>
    cases h; exact ⟨[(_, _), (_, _)], rfl, s.push16_mem _⟩
  | cnz | cz | cnc | cc | cpo | cpe | cp | cm => cases h; exact s.callIf_stores _ _
  | _ => cases h; exact ⟨[], rfl, by simp [State.storeAll]⟩

/-- Settles O18. -/
theorem onlyListedAddressesAreStored : Obligations.OnlyListedAddressesAreStored := by
  intro i s t h x hx
  obtain ⟨l, hl, hmem⟩ := exec_stores h
  rw [State.byteAt_congr hmem, s.byteAt_storeAll_of_not_mem l (hl ▸ hx)]

theorem exec_keeps_bytes_not_ram {i : Instr} {s t : State} (h : exec i s = .next t) {x : Word}
    (hx : s.kindAt x ≠ .ram) : t.byteAt x = s.byteAt x := by
  obtain ⟨l, -, hmem⟩ := exec_stores h
  rw [State.byteAt_congr hmem, s.byteAt_storeAll_of_not_ram l hx]

theorem exec_keeps_wf {i : Instr} {s t : State} (h : exec i s = .next t)
    (hs : Memory.wf s.mem = true) : Memory.wf t.mem = true := by
  obtain ⟨l, -, hmem⟩ := exec_stores h
  exact hmem ▸ s.storeAll_wf l hs

/-- Settles O15: a reset and a stutter leave memory alone, an acceptance pushes pc, and an instruction is
a list of writes. -/
theorem stepKeepsMemoryCanonical : Obligations.StepKeepsMemoryCanonical := by
  intro s t hs h
  rcases step_next_cases h with ⟨_, rfl⟩ | ⟨i, _, rfl⟩ | ⟨_, rfl⟩ | ⟨i, _, _, hexec⟩
  case inl => exact hs
  case inr.inl => exact State.push16_wf _ _ hs
  case inr.inr.inl => exact hs
  case inr.inr.inr => exact exec_keeps_wf hexec hs

/-- Settles O16. -/
theorem resetMemoryIsCanonical : Obligations.ResetMemoryIsCanonical := rfl

/-- Settles O17: whatever a step does to memory, acceptance of an interrupt included, it does by writes
through the map. -/
theorem onlyRamBytesChange : Obligations.OnlyRamBytesChange := by
  refine ⟨fun s x hx => ?read, fun s t h => ?step, fun i s t h => ?exec⟩
  case read => exact s.memRead_of_backed (by rcases hx with hx | hx <;> simp [hx])
  case exec => exact ⟨exec_memMap h, fun x hx => exec_keeps_bytes_not_ram h hx⟩
  case step =>
    rcases step_next_cases h with ⟨_, rfl⟩ | ⟨i, _, rfl⟩ | ⟨_, rfl⟩ | ⟨i, _, _, hexec⟩
    case inl => exact ⟨rfl, fun x _ => rfl⟩
    case inr.inl => exact ⟨by simp, fun x hx => State.byteAt_push16_of_not_ram _ _ hx⟩
    case inr.inr.inl => exact ⟨rfl, fun x _ => rfl⟩
    case inr.inr.inr => exact ⟨(exec_memMap hexec :), fun x hx => (exec_keeps_bytes_not_ram hexec hx :)⟩

/-! ## Flags, pc and SP -/

/-- Settles O22: row by row of the table of 10_state.md R27. -/
theorem flagWriteTable : Obligations.FlagWriteTable := by
  intro i s t h
  cases i with
  | addR | adi | addM | adcR | aci | adcM | subR | sui | subM | sbbR | sbi | sbbM | cmpR | cpi | cmpM
  | daa | popPSW => exact ⟨trivial, trivial, trivial, trivial, trivial⟩
  | anaR | ani | anaM | oraR | ori | oraM | xraR | xri | xraM =>
    cases h; exact ⟨trivial, trivial, rfl, trivial, rfl⟩
  | inrR | inrM | dcrR | dcrM => cases h; exact ⟨trivial, trivial, trivial, trivial, rfl⟩
  | dadB | dadD | dadH | dadSP | cmc | rlc | ral | rrc | rar =>
    cases h; exact ⟨rfl, rfl, rfl, rfl, trivial⟩
  | stc => cases h; exact ⟨rfl, rfl, rfl, rfl, rfl⟩
  | _ =>
    have hflags : t.flags = s.flags := by cases h; simp
    rw [hflags]
    exact ⟨rfl, rfl, rfl, rfl, rfl⟩

/-- Settles O23: every other instruction ends with pc past its own length. -/
theorem pcAdvancesUnlessAssigned : Obligations.PcAdvancesUnlessAssigned := by
  intro i s t h hi
  rw [encode_length]
  cases i with
  | jmp | jnz | jz | jnc | jc | jpo | jpe | jp | jm | pchl | call | cnz | cz | cnc | cc | cpo | cpe
  | cp | cm | ret | rnz | rz | rnc | rc | rpo | rpe | rp | rm | rst => cases hi
  | _ => cases h; simp [State.nextPc, Instr.length]

/-- Settles O24: no shared update but the stack's own and `SP <- v` writes SP. -/
theorem stackPointerHasOnlyItsWriters : Obligations.StackPointerHasOnlyItsWriters := by
  intro i s t h hi
  cases i with
  | lxiSP | sphl | pushB | pushD | pushH | pushPSW | popB | popD | popH | popPSW | inxSP | dcxSP | call
  | cnz | cz | cnc | cc | cpo | cpe | cp | cm | ret | rnz | rz | rnc | rc | rpo | rpe | rp | rm | rst =>
    cases hi
  | _ => cases h; simp

end Sys2Proof.Machine
end

section
/-! PROOFS. The step (60_exceptions.md R308, R323): what it answers at each boundary, one lemma for each,
and the statements about fetching, interrupts, the halted processor, reset and a finished run. -/

namespace Sys2Proof.Machine

/-! ## What a step answers at each boundary -/

theorem step_of_reset {s : State} (h : s.presented = .reset) : step s = .next s.takeEvent.applyReset := by
  simp [step, State.boundary, h]

theorem step_of_accept {s : State} {i : Fin 8} (h : s.presented = .request i) (hiff : s.iff = true)
    (hinh : s.intInhibit = false) : step s = .next (s.takeEvent.acceptInterrupt i) := by
  simp [step, State.boundary, h, hiff, hinh]

theorem step_of_fetch {s : State} {i : Instr} (h : ExecutesNext s) (hi : s.fetch = some i) :
    step s = exec i s.takeEvent := by
  simp [step, (boundary_eq_execute_iff s).mpr h, hi]

theorem step_of_no_fetch {s : State} (h : ExecutesNext s) (hi : s.fetch = none) :
    step s = .fault (.illegalOpcode (s.fetchByte s.pc)) := by
  simp [step, (boundary_eq_execute_iff s).mpr h, hi]

/-- The fetch finds an instruction exactly if the byte at pc is none of the twelve of R87. -/
theorem fetch_isSome_iff (s : State) : s.fetch.isSome ↔ s.fetchByte s.pc ∉ undefinedOpcodes :=
  decodeInstr_isSome_iff _ _ _

/-! ## Fetch and execution -/

/-- Settles O6. -/
theorem stepRunsTheDecodedInstruction : Obligations.StepRunsTheDecodedInstruction := by
  refine ⟨fun s x hx => ?fetch, fun s i rest hs h => ?step⟩
  case fetch => exact s.fetchByte_of_backed (by rcases hx with hx | hx <;> simp [hx])
  case step => exact step_of_fetch hs (decode_cons_eq_ok h).1

/-- Settles O7. -/
theorem undefinedOpcodeFaults : Obligations.UndefinedOpcodeFaults := by
  intro s hs hop
  refine step_of_no_fetch hs (Option.not_isSome_iff_eq_none.mp fun hsome => ?_)
  exact (fetch_isSome_iff s).mp hsome hop

/-- Settles O8: at every boundary but execution the step answers a state outright; there, the byte at pc is
defined, and every instruction completes. -/
theorem nothingElseStopsAStep : Obligations.NothingElseStopsAStep := by
  intro s hs
  cases hb : s.boundary with
  | reset | accept | stutter => simp [step, hb]
  | execute =>
    have hexec := (boundary_eq_execute_iff s).mp hb
    obtain ⟨i, hi⟩ := Option.isSome_iff_exists.mp
      ((fetch_isSome_iff s).mpr fun hop => hs ⟨hexec, hop⟩)
    rw [step_of_fetch hexec hi]
    exact everyInstructionCompletes i _

/-- Settles O26: EI leaves IFF 1 and int_inhibit 1, so that no request is acceptable at the boundary after
it. -/
theorem instructionAfterEiExecutes : Obligations.InstructionAfterEiExecutes := by
  intro s t hs hop hstep hreset
  have hfetch : s.fetch = some .ei := by rw [State.fetch, hop]; rfl
  rw [step_of_fetch hs hfetch] at hstep
  obtain ⟨hiff, hinh, hhalt⟩ : t.iff = true ∧ t.intInhibit = true ∧ t.halted = s.halted := by
    cases hstep; exact ⟨rfl, rfl, rfl⟩
  have ht : ExecutesNext t := ⟨hhalt.trans hs.halted, hreset, fun _ _ => .inr hinh⟩
  exact ⟨ht, hiff, (boundary_eq_execute_iff t).mpr ht, fun i hi => step_of_fetch ht hi⟩

/-! ## Interrupts, halt and reset -/

/-- Settles O10: acceptance is a push of pc and a jump. -/
theorem acceptableInterruptIsTaken : Obligations.AcceptableInterruptIsTaken := by
  intro s i hreq hiff hinh
  refine ⟨_, step_of_accept hreq hiff hinh, ?_⟩
  have hsp : (s.takeEvent.acceptInterrupt i).sp = s.sp - 2 := State.push16_sp _ _
  have hstack := storesTwoBytes_push16 { s.takeEvent with iff := false, halted := false } s.pc
  exact ⟨by simp, by simp, by simp, by simp [restartAddress], hsp, hstack, by simp, by simp, by simp,
    by simp, by simp, by simp⟩

/-- A step depends on the event presented only through the boundary and the event taken. -/
theorem step_congr {s u : State} (hb : s.boundary = u.boundary) (ht : s.takeEvent = u.takeEvent)
    (hf : s.fetch = u.fetch) (hp : s.fetchByte s.pc = u.fetchByte u.pc) : step s = step u := by
  simp [step, hb, ht, hf, hp]

/-- Settles O11: the boundary is the one of a quiet event. -/
theorem unacceptableRequestHasNoEffect : Obligations.UnacceptableRequestHasNoEffect := by
  intro s i rest hevents hno
  refine step_congr ?_ (by simp [State.takeEvent, hevents]) rfl rfl
  rcases hno with hno | hno <;> simp [State.boundary, State.presented, hevents, hno]

/-- Settles O12. -/
theorem haltedProcessorStutters : Obligations.HaltedProcessorStutters := by
  intro s hhalt hreset hno
  have hb : s.boundary = .stutter := by
    rcases s.boundary_cases with ⟨hr, _⟩ | ⟨i, hp, hiff, hinh, _⟩ | ⟨_, _, _, hb⟩ | ⟨_, _, hh, _⟩
    case inl => exact absurd hr hreset
    case inr.inl => simpa [hiff, hinh] using hno i hp
    case inr.inr.inl => exact hb
    case inr.inr.inr => simp [hhalt] at hh
  simp [step, hb, State.takeEvent]

/-- Settles O13. -/
theorem resetEventRestarts : Obligations.ResetEventRestarts := by
  intro s h
  exact ⟨_, step_of_reset h, rfl, rfl, rfl, rfl, fun _ => rfl, rfl, rfl, rfl, rfl⟩

/-- Settles O14. -/
theorem resetStateIsTheSpecs : Obligations.ResetStateIsTheSpecs := ⟨rfl, rfl, rfl, rfl, rfl⟩

/-! ## A finished run -/

theorem finished_iff (s : State) :
    s.finished = true ↔ s.halted = true ∧ (s.iff = false ∨ s.noRequests = true) := by
  simp [State.finished]

theorem noRequests_iff (s : State) :
    s.noRequests = true ↔ ∀ ev ∈ s.events, ∀ i, ev ≠ .request i := by
  rw [State.noRequests, List.all_eq_true]
  refine forall₂_congr fun ev _ => ?_
  cases ev <;> simp

theorem noResets_iff (s : State) : s.noResets = true ↔ ∀ ev ∈ s.events, ev ≠ .reset := by
  rw [State.noResets, List.all_eq_true]
  refine forall₂_congr fun ev _ => ?_
  cases ev <;> simp

theorem presented_mem_events {s : State} (h : s.presented ≠ .quiet) : s.presented ∈ s.events := by
  unfold State.presented at *
  cases hs : s.events <;> simp_all

/-- With no reset ahead, a finished run's step takes one event, and the run is finished still: a request
presented finds IFF 0, for otherwise none is ahead. -/
theorem step_of_finished {s : State} (hf : s.finished = true) (hr : s.noResets = true) :
    step s = .next s.takeEvent ∧ s.takeEvent.finished = true ∧ s.takeEvent.noResets = true := by
  rw [finished_iff, noRequests_iff] at hf ⊢
  rw [noResets_iff] at hr ⊢
  obtain ⟨hhalt, hno⟩ := hf
  have hreset : s.presented ≠ .reset := fun hp =>
    hr _ (presented_mem_events (by simp [hp])) hp
  have haccept : ∀ i, s.presented = .request i → s.iff = false ∨ s.intInhibit = true := fun i hp =>
    hno.imp_right fun hnone => absurd hp (hnone _ (presented_mem_events (by simp [hp])) i)
  exact ⟨haltedProcessorStutters s hhalt hreset haccept,
    ⟨hhalt, hno.imp_right fun hnone ev hev => hnone ev (List.mem_of_mem_tail hev)⟩,
    fun ev hev => hr ev (List.mem_of_mem_tail hev)⟩

/-- Settles O25: by induction on the number of steps, each of which takes one event. -/
theorem finishedRunStaysFinished : Obligations.FinishedRunStaysFinished := by
  intro k
  induction k with
  | zero => exact fun s hf _ => ⟨rfl, hf⟩
  | succ k ih =>
    intro s hf hr
    obtain ⟨hstep, hf', hr'⟩ := step_of_finished hf hr
    rw [run_succ_of_step hstep]
    simpa [State.takeEvent] using ih s.takeEvent hf' hr'

end Sys2Proof.Machine
end

section
/-! PROOFS. The 16-bit moves and the stack (41_move16.md): a pair or SP written, two bytes stored, a word
pushed or popped. The frames of those updates come first. -/

namespace Sys2Proof.Machine

/-! ## Frames of the updates of pairs, SP and the stack -/

theorem Untouched.trans {s t u : State} {w w' : List Reg8} (h : Untouched s t w)
    (h' : Untouched t u w') : Untouched s u (w ++ w') where
  regs q hq := by
    obtain ⟨hw, hw'⟩ := not_or.mp (mt List.mem_append.mpr hq)
    exact (h'.regs q hw').trans (h.regs q hw)
  iff := h'.iff.trans h.iff
  halted := h'.halted.trans h.halted
  memMap := h'.memMap.trans h.memMap
  ioAnswers := h'.ioAnswers.trans h.ioAnswers
  history := h'.history.trans h.history
  events := h'.events.trans h.events

theorem OnlyRegs.trans {s t u : State} {w w' : List Reg8} (h : OnlyRegs s t w)
    (h' : OnlyRegs t u w') : OnlyRegs s u (w ++ w') := by
  obtain ⟨hu, hsp, hflags, hmem⟩ := h
  obtain ⟨hu', hsp', hflags', hmem'⟩ := h'
  exact ⟨hu.trans hu', hsp'.trans hsp, hflags'.trans hflags, fun x => (hmem' x).trans (hmem x)⟩

theorem onlyRegs_setBC (s : State) (v : Word) : OnlyRegs s (s.setBC v) [.b, .c] :=
  ⟨⟨fun q hq => by cases q <;> simp_all, rfl, rfl, rfl, rfl, rfl, rfl⟩, rfl, rfl, fun _ => rfl⟩

theorem onlyRegs_setDE (s : State) (v : Word) : OnlyRegs s (s.setDE v) [.d, .e] :=
  ⟨⟨fun q hq => by cases q <;> simp_all, rfl, rfl, rfl, rfl, rfl, rfl⟩, rfl, rfl, fun _ => rfl⟩

theorem onlyRegs_setHL (s : State) (v : Word) : OnlyRegs s (s.setHL v) [.h, .l] :=
  ⟨⟨fun q hq => by cases q <;> simp_all, rfl, rfl, rfl, rfl, rfl, rfl⟩, rfl, rfl, fun _ => rfl⟩

theorem untouched_setSP (s : State) (v : Word) : Untouched s (s.setSP v) [] :=
  ⟨fun q _ => by simp, rfl, rfl, rfl, rfl, rfl, rfl⟩

theorem untouched_drop16 (s : State) : Untouched s s.drop16 [] := untouched_setSP s _

theorem untouched_setAcc (s : State) (v : Byte) (f : Flags) : Untouched s (s.setAcc v f) [.a] :=
  ⟨fun q hq => by cases q <;> simp_all, rfl, rfl, rfl, rfl, rfl, rfl⟩

/-! ## Loads and moves of pairs -/

/-- An instruction that answers the state with SP written, and ended. -/
theorem writes_sp {i : Instr} {s : State} {v : Word} {n : Nat}
    (h : exec i s = .next ((s.setSP v).finish n)) :
    ∃ t, exec i s = .next t ∧ t.sp = v ∧ Untouched s t [] ∧ t.flags = s.flags ∧ KeepsMemory s t :=
  ⟨_, h, rfl, (untouched_setSP s v).finish n, rfl, fun _ => rfl⟩

/-- Settles O30. -/
theorem lxiLoadsThePair : Obligations.LxiLoadsThePair := by
  refine ⟨fun nn s => ?bc, fun nn s => ?de, fun nn s => ?hl, fun nn s => ?sp⟩
  case bc => exact ⟨_, rfl, rfl, rfl, (onlyRegs_setBC s nn).finish 3⟩
  case de => exact ⟨_, rfl, rfl, rfl, (onlyRegs_setDE s nn).finish 3⟩
  case hl => exact ⟨_, rfl, rfl, rfl, (onlyRegs_setHL s nn).finish 3⟩
  case sp => exact writes_sp rfl

/-- Settles O31: the two addresses of SHLD differ, so that neither write undoes the other. -/
theorem lhldAndShldMoveHL : Obligations.LhldAndShldMoveHL := by
  refine ⟨fun nn s => ?lhld, fun nn s => ?shld⟩
  case lhld => exact ⟨_, rfl, lo_join _ _, hi_join _ _, (onlyRegs_setHL s _).finish 3⟩
  case shld =>
    have hframe := (untouched_memWrite s nn s.l).trans (untouched_memWrite _ (nn + 1) s.h)
    exact ⟨_, rfl, storesTwoBytes_memWrite s _ _ (ne_add_one nn), hframe.finish 3, by simp, by simp⟩

/-- Settles O32: XTHL by its equation `exec_xthl`, in which both reads precede the writes. -/
theorem sphlXchgXthlMoveHL : Obligations.SphlXchgXthlMoveHL := by
  refine ⟨fun s => ?sphl, fun s => ?xchg, fun s => ?xthl⟩
  case sphl => exact writes_sp rfl
  case xchg =>
    have hframe := (onlyRegs_setDE s s.hl).trans (onlyRegs_setHL _ s.de)
    exact ⟨_, rfl, hi_join _ _, lo_join _ _, hi_join _ _, lo_join _ _, hframe.finish 1⟩
  case xthl =>
    have hstores := storesTwoBytes_memWrite s s.h s.l (ne_add_one s.sp).symm
    have hframe := ((untouched_memWrite s (s.sp + 1) s.h).trans (untouched_memWrite _ s.sp s.l)).trans
      (onlyRegs_setHL _ (join (s.memRead (s.sp + 1)) (s.memRead s.sp))).1
    exact ⟨_, exec_xthl s, hi_join _ _, lo_join _ _, hstores, hframe.finish 1, by simp, by simp⟩

/-! ## The stack -/

/-- An instruction that answers the state with a word pushed, and ended, the word given by its bytes. -/
theorem pushes_bytes {i : Instr} {s : State} {x y : Byte} {n : Nat}
    (h : exec i s = .next ((s.push16 (join x y)).finish n)) :
    ∃ t, exec i s = .next t ∧ t.sp = s.sp - 2 ∧ StoresTwoBytes s t (s.sp - 1) x (s.sp - 2) y ∧
      Untouched s t [] ∧ t.flags = s.flags := by
  have hstores := storesTwoBytes_push16 s (join x y)
  rw [hi_join, lo_join] at hstores
  exact ⟨_, h, s.push16_sp _, hstores, (untouched_push16 s _).finish n, by simp⟩

/-- Settles O33. -/
theorem pushStoresThePair : Obligations.PushStoresThePair :=
  ⟨fun _ => pushes_bytes rfl, fun _ => pushes_bytes rfl, fun _ => pushes_bytes rfl⟩

/-- Settles O34: the popped word's halves are the two bytes read. -/
theorem popLoadsThePair : Obligations.PopLoadsThePair := by
  refine ⟨fun s => ?bc, fun s => ?de, fun s => ?hl⟩
  case bc =>
    have hframe := (untouched_drop16 s).trans (onlyRegs_setBC _ s.top16).1
    exact ⟨_, rfl, add_one_add_one s.sp, lo_join _ _, hi_join _ _, hframe.finish 1, rfl, fun _ => rfl⟩
  case de =>
    have hframe := (untouched_drop16 s).trans (onlyRegs_setDE _ s.top16).1
    exact ⟨_, rfl, add_one_add_one s.sp, lo_join _ _, hi_join _ _, hframe.finish 1, rfl, fun _ => rfl⟩
  case hl =>
    have hframe := (untouched_drop16 s).trans (onlyRegs_setHL _ s.top16).1
    exact ⟨_, rfl, add_one_add_one s.sp, lo_join _ _, hi_join _ _, hframe.finish 1, rfl, fun _ => rfl⟩

/-- Settles O35: that `SetFlags` brings every flag back says where `FlagsByte` puts them. -/
theorem pushPswStoresAccAndFlags : Obligations.PushPswStoresAccAndFlags := by
  intro s
  have hbits := s.flags.ofByte_toByte (Config.pswFill s.drawIndex)
  obtain ⟨t, hexec, hsp, hstores, hframe, hflags⟩ := pushes_bytes (i := .pushPSW) (s := s) rfl
  exact ⟨t, _, hexec, hsp, hstores, congrArg Flags.s hbits, congrArg Flags.z hbits,
    congrArg Flags.h hbits, congrArg Flags.p hbits, congrArg Flags.c hbits, hframe, hflags⟩

/-- Settles O36. -/
theorem popPswLoadsAccAndFlags : Obligations.PopPswLoadsAccAndFlags := by
  intro s
  have hlow : lo s.top16 = s.memRead s.sp := lo_join _ _
  have hframe := (untouched_drop16 s).trans
    (untouched_setAcc _ (hi s.top16) (Flags.ofByte (lo s.top16)))
  exact ⟨_, rfl, add_one_add_one s.sp, hi_join _ _, by simp [hlow, Flags.ofByte],
    by simp [hlow, Flags.ofByte], by simp [hlow, Flags.ofByte], by simp [hlow, Flags.ofByte],
    by simp [hlow, Flags.ofByte], hframe.finish 1, fun _ => rfl⟩

/-- A pop from where a push left SP brings SP back. -/
theorem State.drop16_sp_of_push16 {s u : State} {v : Word} (h : u.sp = (s.push16 v).sp) :
    u.drop16.sp = s.sp := by
  rw [State.drop16_sp, h, State.push16_sp]
  bv_omega

/-- Settles O37: the word popped is the word pushed. -/
theorem popPswRestoresWhatPushPswSaved : Obligations.PopPswRestoresWhatPushPswSaved := by
  intro s t u v hpush h1 h2 hsp hmap b1 b2 hpop
  cases hpush
  cases hpop
  have htop := State.top16_of_undisturbed h1 h2 hsp hmap b1 b2
  exact ⟨by simp [htop], by simp [htop], State.drop16_sp_of_push16 hsp⟩

end Sys2Proof.Machine
end

section
/-! PROOFS. 8-bit arithmetic and logic (42_alu8.md). Each group is one lemma about the shared update it is
built on; the arithmetic is that of `add8_spec`, `sub8_spec` and `daa8_spec`. -/

namespace Sys2Proof.Machine

/-! ## Frames -/

theorem onlyRegsAndFlags_setAcc (s : State) (v : Byte) (f : Flags) :
    OnlyRegsAndFlags s (s.setAcc v f) [.a] :=
  ⟨untouched_setAcc s v f, rfl, fun _ => rfl⟩

theorem untouched_setFlags (s : State) (f : Flags) : Untouched s (s.setFlags f) [] :=
  ⟨fun q _ => by simp, rfl, rfl, rfl, rfl, rfl, rfl⟩

theorem onlyRegsAndFlags_setFlags (s : State) (f : Flags) : OnlyRegsAndFlags s (s.setFlags f) [] :=
  ⟨untouched_setFlags s f, rfl, fun _ => rfl⟩

theorem OnlyRegs.setFlags {s t : State} {w : List Reg8} (h : OnlyRegs s t w) (f : Flags) :
    OnlyRegsAndFlags s (t.setFlags f) w := by
  obtain ⟨hu, hsp, -, hmem⟩ := h
  exact ⟨by simpa using hu.trans (untouched_setFlags t f), hsp, hmem⟩

/-! ## The add, subtract, compare and logic groups -/

theorem adds_to_acc {i : Instr} {s : State} {b : Byte} {cin : Bool} {n : Nat}
    (h : exec i s = .next ((s.addAcc b cin).finish n)) :
    ∃ t, exec i s = .next t ∧ AddsToAcc s t b cin := by
  obtain ⟨hres, hcarry, hhalf⟩ := add8_spec s.a b cin
  exact ⟨_, h, hres, szpFrom_ofAlu _ _, by simp [hhalf], by simp [hcarry],
    (onlyRegsAndFlags_setAcc s _ _).finish n⟩

/-- Settles O38. -/
theorem addGroupAddsWithFlags : Obligations.AddGroupAddsWithFlags :=
  ⟨fun _ _ => adds_to_acc rfl, fun _ _ => adds_to_acc rfl, fun _ => adds_to_acc rfl,
    fun _ _ => adds_to_acc rfl, fun _ _ => adds_to_acc rfl, fun _ => adds_to_acc rfl⟩

theorem subtracts_from_acc {i : Instr} {s : State} {b : Byte} {bin : Bool} {n : Nat}
    (h : exec i s = .next ((s.subAcc b bin).finish n)) :
    ∃ t, exec i s = .next t ∧ SubtractsFromAcc s t b bin := by
  obtain ⟨hres, hcarry, -⟩ := sub8_spec Config.subH s.a b bin
  exact ⟨_, h, hres, szpFrom_ofAlu _ _, halfOfBorrow_sub8 _ _ _, by simp [hcarry],
    (onlyRegsAndFlags_setAcc s _ _).finish n⟩

/-- Settles O39. -/
theorem subGroupSubtractsWithFlags : Obligations.SubGroupSubtractsWithFlags :=
  ⟨fun _ _ => subtracts_from_acc rfl, fun _ _ => subtracts_from_acc rfl,
    fun _ => subtracts_from_acc rfl, fun _ _ => subtracts_from_acc rfl,
    fun _ _ => subtracts_from_acc rfl, fun _ => subtracts_from_acc rfl⟩

/-- Without a borrow in, SUB8 is subtraction of words. -/
theorem sub8_res (a b : Byte) : (sub8 Config.subH a b false).res = a - b := by
  apply BitVec.eq_of_toNat_eq
  rw [(sub8_spec Config.subH a b false).1]
  have ha := a.isLt
  have hb := b.isLt
  simp only [Bool.toNat_false, BitVec.toNat_sub]
  omega

theorem compares_acc {i : Instr} {s : State} {b : Byte} {n : Nat}
    (h : exec i s = .next ((s.compareAcc b).finish n)) :
    ∃ t, exec i s = .next t ∧ ComparesAcc s t b := by
  obtain ⟨hres, hcarry, -⟩ := sub8_spec Config.subH s.a b false
  obtain ⟨hs, hz, hp⟩ := szpFrom_ofAlu s.flags (sub8 Config.subH s.a b false)
  rw [hres] at hs hz
  rw [sub8_res] at hp
  refine ⟨_, h, ?zero, by simp [hcarry], hs, hp, halfOfBorrow_sub8 _ _ _,
    (onlyRegsAndFlags_setFlags s _).finish n⟩
  case zero =>
    have ha := s.a.isLt
    have hb := b.isLt
    refine hz.trans ?_
    rw [← BitVec.toNat_inj, Bool.toNat_false]
    omega

/-- Settles O40. -/
theorem compareGroupSetsFlagsOnly : Obligations.CompareGroupSetsFlagsOnly :=
  ⟨fun _ _ => compares_acc rfl, fun _ _ => compares_acc rfl, fun _ => compares_acc rfl⟩

theorem logic_to_acc {i : Instr} {s : State} {v : Byte} {n : Nat}
    (h : exec i s = .next ((s.logicAcc v).finish n)) :
    ∃ t, exec i s = .next t ∧ LogicToAcc s t v :=
  ⟨_, h, rfl, szpFrom_ofLogic _ _, rfl, rfl, (onlyRegsAndFlags_setAcc s _ _).finish n⟩

/-- Settles O41. -/
theorem logicGroupKeepsHalfCarry : Obligations.LogicGroupKeepsHalfCarry :=
  ⟨fun _ _ => logic_to_acc rfl, fun _ _ => logic_to_acc rfl, fun _ => logic_to_acc rfl,
    fun _ _ => logic_to_acc rfl, fun _ _ => logic_to_acc rfl, fun _ => logic_to_acc rfl,
    fun _ _ => logic_to_acc rfl, fun _ _ => logic_to_acc rfl, fun _ => logic_to_acc rfl⟩

/-! ## Increment and decrement -/

/-- `ADD8` of 1: what INR computes (R154). -/
theorem add8_one (v : Byte) : (add8 v 1 false).res.toNat = (v.toNat + 1) % 256 ∧
    ((add8 v 1 false).half = true ↔ v.toNat % 16 = 15) := by
  obtain ⟨hres, -, hhalf⟩ := add8_spec v 1 false
  refine ⟨hres, ?_⟩
  rw [hhalf, decide_eq_true_iff, show (1 : Byte).toNat = 1 from rfl, Bool.toNat_false]
  omega

/-- `SUB8` of 1: what DCR computes (R154); the low digit borrows exactly when it is 0. -/
theorem sub8_one (v : Byte) : (sub8 Config.subH v 1 false).res.toNat = (v.toNat + 255) % 256 ∧
    HalfOfBorrow (sub8 Config.subH v 1 false).half (v.toNat % 16 = 0) := by
  obtain ⟨hres, -, -⟩ := sub8_spec Config.subH v 1 false
  have hhalf := halfOfBorrow_sub8 v 1 false
  refine ⟨?_, by simpa [Nat.lt_one_iff] using hhalf⟩
  rw [hres, show (1 : Byte).toNat = 1 from rfl, Bool.toNat_false]
  omega

/-- INR and DCR of a register: the result in it, and the flags of the result but C. -/
theorem steps_register {i : Instr} {s : State} {r : Reg8} {o : AluOut} {n : Nat}
    (h : exec i s = .next (((s.setReg r o.res).setFlags (s.flags.ofStep o)).finish n)) :
    ∃ t, exec i s = .next t ∧ t.reg r = o.res ∧ SzpFrom t.flags (t.reg r) ∧ t.flags.h = o.half ∧
      t.flags.c = s.flags.c ∧ OnlyRegsAndFlags s t [r] :=
  ⟨_, h, by simp, by simpa using szpFrom_ofStep s.flags o, rfl, rfl,
    ((onlyRegs_setReg s r o.res).setFlags _).finish n⟩

/-- INR and DCR of the byte at an address. -/
theorem steps_byte {i : Instr} {s : State} {x : Word} {o : AluOut} {n : Nat}
    (h : exec i s = .next (((s.memWrite x o.res).setFlags (s.flags.ofStep o)).finish n)) :
    ∃ t, exec i s = .next t ∧ StoresByte s t x o.res ∧ SzpFrom t.flags o.res ∧ t.flags.h = o.half ∧
      t.flags.c = s.flags.c ∧ Untouched s t [] ∧ t.sp = s.sp :=
  ⟨_, h, storesByte_memWrite s x o.res, szpFrom_ofStep _ _, rfl, rfl,
    ((untouched_memWrite s x o.res).trans (untouched_setFlags _ _)).finish n, by simp⟩

/-- Settles O42. -/
theorem incrementKeepsCarry : Obligations.IncrementKeepsCarry := by
  refine ⟨fun rd s => ?inrR, fun s => ?inrM⟩
  case inrR =>
    obtain ⟨hres, hhalf⟩ := add8_one (s.reg rd)
    obtain ⟨t, hexec, hreg, hszp, hh, hc, hframe⟩ := steps_register (i := .inrR rd) (s := s) rfl
    exact ⟨t, hexec, hreg ▸ hres, hszp, hh ▸ hhalf, hc, hframe⟩
  case inrM =>
    obtain ⟨hres, hhalf⟩ := add8_one (s.memRead s.hl)
    obtain ⟨t, hexec, hstores, hszp, hh, hc, hframe, hsp⟩ := steps_byte (i := .inrM) (s := s) rfl
    exact ⟨t, _, hexec, hres, hstores, hszp, hh ▸ hhalf, hc, hframe, hsp⟩

/-- Settles O43. -/
theorem decrementKeepsCarry : Obligations.DecrementKeepsCarry := by
  refine ⟨fun rd s => ?dcrR, fun s => ?dcrM⟩
  case dcrR =>
    obtain ⟨hres, hhalf⟩ := sub8_one (s.reg rd)
    obtain ⟨t, hexec, hreg, hszp, hh, hc, hframe⟩ := steps_register (i := .dcrR rd) (s := s) rfl
    exact ⟨t, hexec, hreg ▸ hres, hszp, hh ▸ hhalf, hc, hframe⟩
  case dcrM =>
    obtain ⟨hres, hhalf⟩ := sub8_one (s.memRead s.hl)
    obtain ⟨t, hexec, hstores, hszp, hh, hc, hframe, hsp⟩ := steps_byte (i := .dcrM) (s := s) rfl
    exact ⟨t, _, hexec, hres, hstores, hszp, hh ▸ hhalf, hc, hframe, hsp⟩

/-! ## The decimal adjust -/

/-- Settles O44. -/
theorem daaCorrectsTheAccumulator : Obligations.DaaCorrectsTheAccumulator := by
  intro s
  obtain ⟨low, high, hlow, hlow', hhigh, hhigh', hres, hhalf, hcarry⟩ := daa8_spec s.a s.flags
  exact ⟨_, low, high, rfl, hlow, hlow', hhigh, hhigh', hres, szpFrom_ofAlu _ _, hhalf, hcarry,
    (onlyRegsAndFlags_setAcc s _ _).finish 1⟩

/-- The decimal adjust of a binary sum of two packed-BCD bytes is their decimal sum: the two digits, and
the hundreds in C. -/
theorem daa8_add8 {a b : Byte} {cin : Bool} (f : Flags) (ha : IsBcd a) (hb : IsBcd b) :
    IsBcd (daa8 (add8 a b cin).res (f.ofAlu (add8 a b cin))).res ∧
      bcdValue (daa8 (add8 a b cin).res (f.ofAlu (add8 a b cin))).res +
        100 * (daa8 (add8 a b cin).res (f.ofAlu (add8 a b cin))).carry.toNat =
          bcdValue a + bcdValue b + cin.toNat := by
  obtain ⟨hsum, hc, hh⟩ := add8_spec a b cin
  generalize add8 a b cin = o at hsum hc hh ⊢
  obtain ⟨low, high, hlow, hlow', hhigh, hhigh', hres, -, hcarry⟩ := daa8_spec o.res (f.ofAlu o)
  generalize daa8 o.res (f.ofAlu o) = r at hres hcarry ⊢
  have hcin : cin.toNat ≤ 1 := Bool.toNat_le cin
  simp only [Flags.ofAlu_h, Flags.ofAlu_c, hc, hh, decide_eq_true_iff] at hlow hlow' hhigh hhigh' hcarry
  unfold IsBcd bcdValue at *
  cases hr : r.carry with
  | true => rw [hr, eq_self, true_iff] at hcarry; rw [Bool.toNat_true]; omega
  | false => rw [hr, Bool.false_eq_true, false_iff] at hcarry; rw [Bool.toNat_false]; omega

theorem adds_decimally {i : Instr} {s : State} {b : Byte} {cin : Bool} {n : Nat}
    (h : exec i s = .next ((s.addAcc b cin).finish n)) : AddsDecimally i s b cin := by
  intro ha hb
  obtain ⟨hbcd, hvalue⟩ := daa8_add8 s.flags ha hb
  exact ⟨_, _, h, rfl, hbcd, hvalue⟩

/-- Settles O45. -/
theorem daaAfterAddIsDecimalAddition : Obligations.DaaAfterAddIsDecimalAddition :=
  ⟨fun _ _ => adds_decimally rfl, fun _ _ => adds_decimally rfl, fun _ => adds_decimally rfl,
    fun _ _ => adds_decimally rfl, fun _ _ => adds_decimally rfl, fun _ => adds_decimally rfl⟩

end Sys2Proof.Machine
end

section
/-! PROOFS. 16-bit arithmetic (43_arith16.md) and the CPU control instructions that write no carry
(44_cpu_control.md R223 to R226). -/

namespace Sys2Proof.Machine

/-! ## DAD -/

theorem adds_to_hl {i : Instr} {s : State} {v : Word} {n : Nat}
    (h : exec i s = .next ((s.addHL v).finish n)) : ∃ t, exec i s = .next t ∧ AddsToHL s t v := by
  have hsum : ((s.addHL v).finish n).hl = s.hl + v := s.hl_addHL v
  obtain ⟨hu, hsp, -, hmem⟩ := onlyRegs_setHL s (BitVec.ofNat 16 (s.hl.toNat + v.toNat))
  have hframe : OnlyRegsAndFlags s (s.addHL v) [.h, .l] :=
    ⟨hu.trans (untouched_setCarry _ _), hsp, hmem⟩
  refine ⟨_, h, ?_, by simp, rfl, rfl, rfl, rfl, hframe.finish n⟩
  rw [hsum, BitVec.toNat_add]

/-- Settles O47. -/
theorem dadAddsIntoHL : Obligations.DadAddsIntoHL :=
  ⟨fun _ => adds_to_hl rfl, fun _ => adds_to_hl rfl, fun _ => adds_to_hl rfl, fun _ => adds_to_hl rfl⟩

/-! ## INX and DCX -/

theorem toNat_add_one (v : Word) : (v + 1).toNat = (v.toNat + 1) % 65536 := BitVec.toNat_add v 1

theorem toNat_sub_one (v : Word) : (v - 1).toNat = (v.toNat + 65535) % 65536 := by bv_omega

theorem bc_finish_setBC (s : State) (v : Word) (n : Nat) : ((s.setBC v).finish n).bc = v :=
  s.bc_setBC v

theorem de_finish_setDE (s : State) (v : Word) (n : Nat) : ((s.setDE v).finish n).de = v :=
  s.de_setDE v

theorem hl_finish_setHL (s : State) (v : Word) (n : Nat) : ((s.setHL v).finish n).hl = v :=
  s.hl_setHL v

/-- Settles O48. -/
theorem inxAndDcxChangeNoFlag : Obligations.InxAndDcxChangeNoFlag := by
  refine ⟨?_, ?_, ?_, ?_, ?_, ?_, ?_, ?_, fun s => ?inxB, fun s => ?inxD, fun s => ?inxH,
    fun s => ?inxSP, fun s => ?dcxB, fun s => ?dcxD, fun s => ?dcxH, fun s => ?dcxSP⟩
  case inxB =>
    exact ⟨_, rfl, by rw [bc_finish_setBC, toNat_add_one], (onlyRegs_setBC s _).finish 1⟩
  case inxD =>
    exact ⟨_, rfl, by rw [de_finish_setDE, toNat_add_one], (onlyRegs_setDE s _).finish 1⟩
  case inxH =>
    exact ⟨_, rfl, by rw [hl_finish_setHL, toNat_add_one], (onlyRegs_setHL s _).finish 1⟩
  case dcxB =>
    exact ⟨_, rfl, by rw [bc_finish_setBC, toNat_sub_one], (onlyRegs_setBC s _).finish 1⟩
  case dcxD =>
    exact ⟨_, rfl, by rw [de_finish_setDE, toNat_sub_one], (onlyRegs_setDE s _).finish 1⟩
  case dcxH =>
    exact ⟨_, rfl, by rw [hl_finish_setHL, toNat_sub_one], (onlyRegs_setHL s _).finish 1⟩
  case inxSP =>
    obtain ⟨t, hexec, hsp, hframe⟩ := writes_sp (i := .inxSP) (s := s) rfl
    exact ⟨t, hexec, by rw [hsp, toNat_add_one], hframe⟩
  case dcxSP =>
    obtain ⟨t, hexec, hsp, hframe⟩ := writes_sp (i := .dcxSP) (s := s) rfl
    exact ⟨t, hexec, by rw [hsp, toNat_sub_one], hframe⟩
  all_goals exact ⟨rfl, fun _ => ⟨rfl, rfl⟩⟩

/-! ## NOP, HLT, DI and EI -/

/-- Settles O50. -/
theorem nopAndHltAdvancePc : Obligations.NopAndHltAdvancePc := by
  refine ⟨fun s => ?nop, fun s => ?hlt⟩
  case nop => exact ⟨_, rfl, rfl, rfl, onlyRegs_goto s _⟩
  case hlt => exact ⟨_, rfl, rfl, rfl, rfl, onlyRegs_goto { s with halted := true } _⟩

/-- `OnlyRegs` says nothing of int_inhibit. -/
theorem OnlyRegs.setInhibit {s t : State} {w : List Reg8} (h : OnlyRegs s t w) (v : Bool) :
    OnlyRegs s { t with intInhibit := v } w := by
  obtain ⟨hu, hsp, hflags, hmem⟩ := h
  exact ⟨⟨hu.regs, hu.iff, hu.halted, hu.memMap, hu.ioAnswers, hu.history, hu.events⟩, hsp, hflags,
    hmem⟩

/-- Settles O51. -/
theorem diAndEiWriteIffAndInhibit : Obligations.DiAndEiWriteIffAndInhibit := by
  refine ⟨fun s => ?di, fun s => ?ei⟩
  case di =>
    have hframe := onlyRegs_goto { s with iff := false } (s.nextPc 1)
    exact ⟨_, rfl, rfl, rfl, rfl, hframe.setInhibit true⟩
  case ei =>
    have hframe := onlyRegs_goto { s with iff := true } (s.nextPc 1)
    exact ⟨_, rfl, rfl, rfl, rfl, hframe.setInhibit true⟩

end Sys2Proof.Machine
end

section
/-! PROOFS. Conditional jumps, calls, returns and restarts (45_jump.md, 46_call_return.md), and that RET
undoes the push of a call or of an interrupt acceptance (60_exceptions.md R311). -/

namespace Sys2Proof.Machine

/-! ## What the conditional instructions answer -/

theorem exec_condJump (k : Cond) (nn : Word) (s : State) :
    exec (condJump k nn) s = .next (s.jumpIf k nn) := by
  cases k <;> rfl

theorem exec_condCall (k : Cond) (nn : Word) (s : State) :
    exec (condCall k nn) s = .next (s.callIf k nn) := by
  cases k <;> rfl

theorem exec_condReturn (k : Cond) (s : State) :
    exec (condReturn k) s = .next (s.returnIf k) := by
  cases k <;> rfl

/-! ## Jumps -/

/-- Settles O53. -/
theorem conditionalJumpsTestTheirFlag : Obligations.ConditionalJumpsTestTheirFlag := by
  intro k nn s
  refine ⟨_, exec_condJump k nn s, ?_⟩
  rw [condTrue_iff_holds]
  rcases s.jumpIf_cases k nn with ⟨hk, hjump⟩ | ⟨hk, hjump⟩ <;> rw [hjump, hk]
  · exact ⟨fun _ => rfl, fun hn => absurd rfl hn, onlyRegs_goto s nn⟩
  · exact ⟨nofun, fun _ => rfl, onlyRegs_goto s _⟩

/-! ## Calls -/

theorem calls_call (s : State) (ret target : Word) : Calls s (s.call ret target) ret target :=
  ⟨rfl, s.push16_sp ret, storesTwoBytes_push16 s ret, (untouched_push16 s ret).goto target, by simp⟩

/-- Settles O54. -/
theorem callAndRstPushReturnAddress : Obligations.CallAndRstPushReturnAddress :=
  ⟨fun nn s => ⟨_, rfl, calls_call s _ nn⟩, fun i s => ⟨_, rfl, calls_call s _ (restartAddress i)⟩⟩

/-- Settles O55. -/
theorem conditionalCallsTestTheirFlag : Obligations.ConditionalCallsTestTheirFlag := by
  intro k nn s
  refine ⟨_, exec_condCall k nn s, ?_⟩
  rw [condTrue_iff_holds]
  rcases s.callIf_cases k nn with ⟨hk, hcall⟩ | ⟨hk, hcall⟩ <;> rw [hcall, hk]
  · exact ⟨fun _ => calls_call s _ nn, fun hn => absurd rfl hn⟩
  · exact ⟨nofun, fun _ => ⟨rfl, onlyRegs_goto s _⟩⟩

/-! ## Returns -/

theorem returns_popPc (s : State) : Returns s s.popPc :=
  ⟨rfl, add_one_add_one s.sp, (untouched_drop16 s).goto s.top16, rfl, fun _ => rfl⟩

/-- Settles O56. -/
theorem retLoadsPcFromStack : Obligations.RetLoadsPcFromStack :=
  fun s => ⟨_, rfl, returns_popPc s⟩

/-- Settles O57. -/
theorem conditionalReturnsTestTheirFlag : Obligations.ConditionalReturnsTestTheirFlag := by
  intro k s
  refine ⟨_, exec_condReturn k s, ?_⟩
  rw [condTrue_iff_holds]
  rcases s.returnIf_cases k with ⟨hk, hreturn⟩ | ⟨hk, hreturn⟩ <;> rw [hreturn, hk]
  · exact ⟨fun _ => returns_popPc s, fun hn => absurd rfl hn⟩
  · exact ⟨nofun, fun _ => ⟨rfl, onlyRegs_goto s _⟩⟩

/-- A return after a push, with SP back and the two bytes, in RAM, undisturbed, goes to the word pushed and
leaves SP where it was before the push. -/
theorem popPc_of_undisturbed {s u : State} {ret : Word} (h1 : s.kindAt (s.sp - 1) = .ram)
    (h2 : s.kindAt (s.sp - 2) = .ram) (hsp : u.sp = (s.push16 ret).sp)
    (hmap : u.memMap = (s.push16 ret).memMap)
    (b1 : u.byteAt (s.sp - 1) = (s.push16 ret).byteAt (s.sp - 1))
    (b2 : u.byteAt (s.sp - 2) = (s.push16 ret).byteAt (s.sp - 2)) :
    u.popPc.pc = ret ∧ u.popPc.sp = s.sp :=
  ⟨State.top16_of_undisturbed h1 h2 hsp hmap b1 b2, State.drop16_sp_of_push16 hsp⟩

/-- Settles O58: CALL pushes the address after it, and acceptance pushes pc with IFF and halted cleared,
which a push does not look at. -/
theorem retReturnsToCallerAndInterruptedProgram :
    Obligations.RetReturnsToCallerAndInterruptedProgram := by
  refine ⟨fun nn s t u v hcall h1 h2 hsp hmap b1 b2 hret => ?call,
    fun i s t u v hreq hiff hinh hstep h1 h2 hsp hmap b1 b2 hret => ?interrupt⟩
  case call =>
    cases hcall
    cases hret
    exact popPc_of_undisturbed h1 h2 hsp hmap b1 b2
  case interrupt =>
    rw [step_of_accept hreq hiff hinh] at hstep
    cases hstep
    cases hret
    exact popPc_of_undisturbed (s := { s.takeEvent with iff := false, halted := false }) h1 h2 hsp hmap
      b1 b2

end Sys2Proof.Machine
end

section
/-! PROOFS. The rotates (47_rotate.md), and input and output (48_io.md). -/

namespace Sys2Proof.Machine

/-! ## Rotates -/

theorem rotateLeft_getLsbD (v : Byte) (bit : Bool) (k : Nat) : (rotateLeft v bit).getLsbD k =
    if k < 1 then (BitVec.ofBool bit).getLsbD k else (v.extractLsb' 0 7).getLsbD (k - 1) :=
  BitVec.getLsbD_append

theorem rotateLeft_getLsbD_zero (v : Byte) (bit : Bool) : (rotateLeft v bit).getLsbD 0 = bit := by
  rw [rotateLeft_getLsbD]; simp

theorem rotateLeft_getLsbD_succ (v : Byte) (bit : Bool) {k : Nat} (hk : k < 7) :
    (rotateLeft v bit).getLsbD (k + 1) = v.getLsbD k := by
  rw [rotateLeft_getLsbD]; simp [hk]

theorem rotateRight_getLsbD (v : Byte) (bit : Bool) (k : Nat) : (rotateRight v bit).getLsbD k =
    if k < 7 then (v.extractLsb' 1 7).getLsbD k else (BitVec.ofBool bit).getLsbD (k - 7) :=
  BitVec.getLsbD_append

theorem rotateRight_getLsbD_seven (v : Byte) (bit : Bool) : (rotateRight v bit).getLsbD 7 = bit := by
  rw [rotateRight_getLsbD]; simp

theorem rotateRight_getLsbD_of_lt (v : Byte) (bit : Bool) {k : Nat} (hk : k < 7) :
    (rotateRight v bit).getLsbD k = v.getLsbD (k + 1) := by
  rw [rotateRight_getLsbD]; simp [hk, Nat.add_comm]

/-- With its own bit 7 entering, a byte moved left is rotated (47_rotate.md R281). -/
theorem rotateLeft_eq : ∀ v : Byte, rotateLeft v (v.getLsbD 7) = v.rotateLeft 1 := by decide

/-- With its own bit 0 entering, a byte moved right is rotated (R283). -/
theorem rotateRight_eq : ∀ v : Byte, rotateRight v (v.getLsbD 0) = v.rotateRight 1 := by decide

/-- An instruction that answers the state with A and the carry written, and ended. -/
theorem writes_acc_and_carry {i : Instr} {s : State} {v : Byte} {c : Bool} {n : Nat}
    (h : exec i s = .next (((s.setReg .a v).setCarry c).finish n)) :
    ∃ t, exec i s = .next t ∧ t.a = v ∧ t.flags = { s.flags with c := c } ∧
      OnlyRegsAndFlags s t [.a] :=
  ⟨_, h, rfl, rfl, ((onlyRegs_setReg s .a v).setFlags { s.flags with c := c }).finish n⟩

/-- Settles O59. -/
theorem rotatesMoveEveryBit : Obligations.RotatesMoveEveryBit := by
  refine ⟨fun s => ?rlc, fun s => ?rrc, fun s => ?ral, fun s => ?rar⟩
  case rlc =>
    obtain ⟨t, hexec, ha, hframe⟩ := writes_acc_and_carry (i := .rlc) (s := s) rfl
    exact ⟨t, hexec, ha.trans (rotateLeft_eq s.a), hframe⟩
  case rrc =>
    obtain ⟨t, hexec, ha, hframe⟩ := writes_acc_and_carry (i := .rrc) (s := s) rfl
    exact ⟨t, hexec, ha.trans (rotateRight_eq s.a), hframe⟩
  case ral =>
    obtain ⟨t, hexec, ha, hframe⟩ := writes_acc_and_carry (i := .ral) (s := s) rfl
    exact ⟨t, hexec, fun k hk => ha ▸ rotateLeft_getLsbD_succ _ _ hk,
      ha ▸ rotateLeft_getLsbD_zero _ _, hframe⟩
  case rar =>
    obtain ⟨t, hexec, ha, hframe⟩ := writes_acc_and_carry (i := .rar) (s := s) rfl
    exact ⟨t, hexec, fun k hk => ha ▸ rotateRight_getLsbD_of_lt _ _ hk,
      ha ▸ rotateRight_getLsbD_seven _ _, hframe⟩

/-! ## Input and output -/

/-- Settles O60. -/
theorem inAndOutExchangeTheAccumulator : Obligations.InAndOutExchangeTheAccumulator := by
  refine ⟨fun n s => ?input, fun n s => ?output⟩
  case input =>
    obtain ⟨hu, hsp, hflags, hmem⟩ := onlyRegs_setReg s .a (s.ioAnswer n)
    refine ⟨_, rfl, fun v rest hlist => ?listed, fun hlist => ?none, rfl,
      ⟨hu.regs, rfl, rfl, rfl, rfl, rfl, rfl⟩, hsp, hflags, hmem⟩
    case listed => exact ⟨by simp [State.ioAnswer, hlist], by simp [hlist]⟩
    case none => simp [hlist]
  case output =>
    exact ⟨_, rfl, rfl, ⟨fun r _ => by cases r <;> rfl, rfl, rfl, rfl, rfl, rfl, rfl⟩, rfl, rfl,
      fun _ => rfl⟩

end Sys2Proof.Machine
end
